-- ==== Sys2Proof/Word.lean ====
section
/-! DEFINITION. The fixed widths of the machine (spec/00_scope.md R5, R6, R9). -/

namespace Sys2Proof

/-- A word: the contents of a register, of a memory location, of an instruction (R5: 32 bits). -/
abbrev Word := BitVec 32

/-- One byte cell of the model's memory; the machine itself has no byte access (R66). -/
abbrev Byte := BitVec 8

/-- A word address or an instruction address (R6: 20 bits), and the 20-bit field that carries one. -/
abbrev Addr := BitVec 20

/-- A 4-bit register specifier, of a general or of a special register (R5). -/
abbrev Reg := BitVec 4

/-- The 16-bit immediate field (R5). -/
abbrev Imm := BitVec 16

/-- `to32` of R9: the 32-bit word equal to an integer modulo 2^32.  R9 reads a word back as
`uint` (`BitVec.toNat`) and `sint` (`BitVec.toInt`, two's complement). -/
def to32 (n : Int) : Word := BitVec.ofInt 32 n

end Sys2Proof
end

