-- ==== Sys2Proof/Config.lean ====
section
/-! DEFINITION. What an implementation fixes: the configuration record of spec/00_scope.md R7, one field
for each parameter, with the values spec/92_eei_decisions.md lists for it; what reset leaves
unspecified; and the free values. -/

namespace Sys2Proof

/-- What a platform declares a word address to be (R70, parameter `MEM_MAP`). -/
inductive MemKind where
  | ram
  | rom
  | device
  | absent
deriving DecidableEq, Repr

/-- A run of word addresses of one kind: `base` to `base + size - 1`. -/
structure Region where
  base : Nat
  size : Nat
  kind : MemKind
deriving DecidableEq, Repr

/-- `MEM_MAP` (R70): a total function from the 2^20 word addresses to a kind, written as data:
the listed regions and the kind of every address in none of them. -/
structure MemMap where
  regions : List Region
  elsewhere : MemKind
deriving DecidableEq, Repr

/-- `USER_MODE_POLICY` (60_exceptions.md R291, D24): OPEN, with these three values. -/
inductive UserModePolicy where
  /-- A step of an instruction that starts with `KU` = 0 has no behaviour. -/
  | refuse
  /-- User mode executes every instruction exactly as kernel mode. -/
  | unrestricted
  /-- In user mode `movgs`, `movsg` and `rfe` take the general protection exception instead. -/
  | gpf
deriving DecidableEq, Repr

/-- `RESERVED_POLICY` (30_encoding.md R112, D13): what executing a reserved word does. -/
inductive ReservedPolicy where
  | refuse
  | gpf
deriving DecidableEq, Repr

/-- `EA_HIGH_BITS` (20_memory.md R68, D4): bits 31:20 of an effective address. -/
inductive HighBits where
  | ignore
  /-- An access with `ea[31:20]` not 0 has no behaviour. -/
  | refuse
deriving DecidableEq, Repr

/-- `PC_WRAP` (10_state.md R37, D5): the successor of `0xFFFFF`. -/
inductive PcWrap where
  | wrap
  /-- Stepping past `0xFFFFF` has no behaviour. -/
  | refuse
deriving DecidableEq, Repr

/-- `DIV_ROUND` (40_arithmetic.md R154, D10): the rounding of signed division. -/
inductive DivRound where
  | towardZero
  | floor
deriving DecidableEq, Repr

/-- `DIV_MIN_NEG1` (40_arithmetic.md R154, D11): `0x80000000` divided by -1, signed. -/
inductive DivMinNeg1 where
  | wrap
  | refuse
deriving DecidableEq, Repr

/-- `BRANCH_BASE` (43_branch.md R220, D7): what a branch offset is added to. -/
inductive BranchBase where
  /-- The address of the next instruction. -/
  | next
  /-- The address of the branch. -/
  | current
deriving DecidableEq, Repr

/-- `EXC_RD` (40_arithmetic.md R130, D9): `Rd` after an arithmetic exception. -/
inductive ExcRd where
  | unchanged
  /-- `Rd` holds a draw. -/
  | any
deriving DecidableEq, Repr

/-- `MBZ_POLICY` (30_encoding.md R108, D14): whether the constant-zero fields are checked. -/
inductive MbzPolicy where
  | strict
  /-- The masks shrink to `op` and `func`. -/
  | ignore
deriving DecidableEq, Repr

/-- `EAR_VALUE` (60_exceptions.md R272, D20): the address a synchronous exception saves. -/
inductive EarValue where
  | next
  | faulting
deriving DecidableEq, Repr

/-- `EXC_HANDLER` (60_exceptions.md R274, D21): where the exception handler is. -/
inductive ExcHandler where
  /-- At `evec[19:0]`. -/
  | evec
  /-- At a fixed address. -/
  | fixed (a : Addr)
deriving DecidableEq, Repr

/-- `IRQ_MODEL` (60_exceptions.md R280, D23). -/
inductive IrqModel where
  /-- Eight level lines the environment drives. -/
  | lines8
  /-- No interrupts: all lines 0 for ever. -/
  | none
deriving DecidableEq, Repr

/-- `IFETCH_COHERENT` (20_memory.md R75, D26): whether a fetch sees an earlier store. -/
inductive FetchCoherence where
  /-- `true`: it does, from the next instruction on. -/
  | coherent
  /-- `refuse_modified`: a fetch from a word stored to since reset has no behaviour. -/
  | refuseModified
deriving DecidableEq, Repr

/-- The assignments exception entry is made of (60_exceptions.md R270). -/
inductive EntryStep where
  /-- `OIE <- IE`. -/
  | saveIe
  /-- `OKU <- KU`. -/
  | saveKu
  /-- `IE <- 0`. -/
  | clearIe
  /-- `KU <-` the value that means kernel. -/
  | enterKernel
  /-- `ear <- zext_32(return_address)`. -/
  | saveReturn
  /-- `estat <- cause_word`. -/
  | saveCause
  /-- `pc <-` the handler's address. -/
  | toHandler
deriving DecidableEq, Repr

/-- `CAUSE_ENCODING` (60_exceptions.md R273, D12, D22): the word entry puts in `$estat`. -/
structure CauseEncoding where
  overflow : Word
  divideByZero : Word
  breakpoint : Word
  systemCall : Word
  generalProtection : Word
  /-- The bit of interrupt line 0; line `n` has the bit `n` above it. -/
  irqBit : Nat
deriving DecidableEq, Repr

/-- The ten special registers of 10_state.md R41. -/
inductive Special where
  | cctrl
  | estat
  | icount
  | ccount
  | evec
  | ear
  | esp
  | ers
  | ptable
  | rbase
deriving DecidableEq, Repr

/-- `SPR_LAYOUT` (10_state.md R38, R41, R42; D16, D17, D31): the numbers of the special registers,
which of them `movgs` may not write, and the places of the fields of `$cctrl`. -/
structure SprLayout where
  /-- Entry `n` is the register that number `n` names, if there is one. -/
  slots : Vector (Option Special) 16
  readOnly : List Special
  oieBit : Nat
  ieBit : Nat
  okuBit : Nat
  kuBit : Nat
  /-- The lowest of the eight bits of `IMASK`. -/
  imaskBit : Nat
deriving DecidableEq, Repr


/-- `IMAGE_BYTE_ORDER` (20_memory.md R64, D28): how a host turns a stream of bytes into words. -/
inductive ImageByteOrder where
  | big
  | little
  /-- "image is given as words": no stream of bytes is one. -/
  | words
deriving DecidableEq, Repr

/-- `END_OF_RUN` (70_reset_and_hazards.md R323, D30): when a run is over; the conventions a harness can
choose from. -/
inductive EndOfRun where
  /-- When `pc` reaches the address. -/
  | stopAddress (a : Addr)
  /-- When an instruction jumps to itself. -/
  | selfJump
  /-- After so many steps. -/
  | stepCount (n : Nat)
deriving DecidableEq, Repr

/-- The configuration record of 00_scope.md R7: every parameter of its table, in its order. -/
structure Platform where
  /-- `RESET_PC` (OPEN, D25). -/
  resetPc : Addr
  /-- `MEM_MAP` (OPEN, D29). -/
  memMap : MemMap
  /-- `EA_HIGH_BITS` (D4). -/
  eaHighBits : HighBits
  /-- `PC_WRAP` (D5). -/
  pcWrap : PcWrap
  /-- `DIV_ROUND` (D10). -/
  divRound : DivRound
  /-- `DIV_MIN_NEG1` (D11). -/
  divMinNeg1 : DivMinNeg1
  /-- `RESERVED_POLICY` (D13). -/
  reserved : ReservedPolicy
  /-- `SPR_LAYOUT` (D16, D17, D31). -/
  spr : SprLayout
  /-- `KU_KERNEL_VALUE` (D18): the value of `KU` that means kernel, true for 1. -/
  kuKernel : Bool
  /-- `EXC_ENTRY` (D19): the assignments of exception entry, all reading the state before it. -/
  excEntry : List EntryStep
  /-- `EAR_VALUE` (D20). -/
  earValue : EarValue
  /-- `EXC_HANDLER` (D21). -/
  excHandler : ExcHandler
  /-- `CAUSE_ENCODING` (D12, D22). -/
  causes : CauseEncoding
  /-- `IRQ_MODEL` (D23). -/
  irqModel : IrqModel
  /-- `USER_MODE_POLICY` (OPEN with a default, D24). -/
  userMode : UserModePolicy
  /-- `IMAGE_BYTE_ORDER` (OPEN, D28). -/
  imageByteOrder : ImageByteOrder
  /-- `END_OF_RUN` (OPEN, D30). -/
  endOfRun : EndOfRun
  /-- `BRANCH_BASE` (D7). -/
  branchBase : BranchBase
  /-- `EXC_RD` (D9). -/
  excRd : ExcRd
  /-- `MBZ_POLICY` (D14). -/
  mbz : MbzPolicy
  /-- `LHI_RS_IGNORED` (D15). -/
  lhiRsIgnored : Bool
  /-- `RESET_KU` (D25). -/
  resetKu : Bool
  /-- `RESET_IE` (D25). -/
  resetIe : Bool
  /-- `IFETCH_COHERENT` (D26). -/
  fetchCoherence : FetchCoherence
deriving DecidableEq, Repr

/-- What the spec leaves unspecified after reset (10_state.md R50): one value for each such register.
Log entries 1 and 3. -/
structure PowerOn where
  /-- `$1` to `$ra`: entry `k` is register `k + 1`. -/
  general : Vector Word 15
  oku : Bool
  oie : Bool
  imask : BitVec 8
  estat : Word
  evec : Word
  ear : Word
  esp : Word
  ers : Word
  ptable : Word
  rbase : Word
  irq : BitVec 8
deriving DecidableEq, Repr

/-- FREE VALUE (DESIGN CHOICE, safe, log entry 9).  The `n`-th draw of a run: what a read of
`$icount`, `$ccount`, of `$cctrl` bits 31:12 or of a device word returns (R41, R42, R45, R62). -/
opaque Config.draw : Nat → Word

/-- FREE VALUE (DESIGN CHOICE, safe, log entry 7).  The unspecified contents of a byte cell that
nothing has stored to and no image gives (R62, 93_implementation_defined.md U4). -/
opaque Config.unwrittenCell : Nat → Byte

end Sys2Proof
end

