-- ==== Sys2Proof/Machine/Memory.lean ====
section
/-! DEFINITION. Memory as data: 2^20 words (spec/20_memory.md R61), each held as four byte cells, in
one canonical list; and the memory map.  Cell `4 * a + k` holds bits `8k+7:8k` of word `a`; no
instruction can see the cells of a word apart (R64, R66; DESIGN CHOICE, safe, log entry 8). -/

namespace Sys2Proof.Machine

/-- The cells that hold a value, by rising address. -/
abbrev Memory := List Host.Cell

/-- The number of byte cells: four for each of the 2^20 words (R61). -/
def cellCount : Nat := 4194304

/-- What a cell holds; an unlisted cell holds no value (nothing stored, no image; log entry 7). -/
def Memory.read? : Memory → Nat → Option Byte
  | [], _ => none
  | (k, b) :: rest, a => if k = a then some b else Memory.read? rest a

/-- Store one byte, keeping the addresses rising. -/
def Memory.write : Memory → Nat → Byte → Memory
  | [], a, v => [(a, v)]
  | (k, b) :: rest, a, v =>
    if a < k then (a, v) :: (k, b) :: rest
    else if a = k then (a, v) :: rest
    else (k, b) :: Memory.write rest a v

/-- The canonical form: addresses strictly rising and inside the address space.  An unlisted cell
reads as no value, so no entry can equal it. -/
abbrev Memory.wf (m : Memory) : Prop :=
  m.Pairwise (fun c d => c.1 < d.1) ∧ ∀ c ∈ m, c.1 < cellCount

/-- Cell `k` (0 to 3) of the word at `a`. -/
def cellOf (a : Addr) (k : Nat) : Nat := 4 * a.toNat + k

/-- Byte `k` of a word, byte 0 the least significant. -/
def byteOf (v : Word) (k : Nat) : Byte := v.extractLsb' (8 * k) 8

/-- The word whose bytes 0 to 3 are given. -/
def wordOfBytes (b0 b1 b2 b3 : Byte) : Word := b3 ++ b2 ++ b1 ++ b0

/-- The bytes of a word, byte 0 first: what lies in its cells. -/
def bytesOfWord (v : Word) : List Byte := [byteOf v 0, byteOf v 1, byteOf v 2, byteOf v 3]

/-- The word at `a`, if something has been stored there (R62). -/
def Memory.word? (m : Memory) (a : Addr) : Option Word :=
  match m.read? (cellOf a 0), m.read? (cellOf a 1), m.read? (cellOf a 2), m.read? (cellOf a 3) with
  | some b0, some b1, some b2, some b3 => some (wordOfBytes b0 b1 b2 b3)
  | _, _, _, _ => none

/-- What a load reads in a cell: its value, or the free value of a cell never written (R62, U4). -/
def Memory.cell (m : Memory) (c : Nat) : Byte := (m.read? c).getD (Config.unwrittenCell c)

/-- The word a load from `a` reads (R62). -/
def Memory.word (m : Memory) (a : Addr) : Word :=
  wordOfBytes (m.cell (cellOf a 0)) (m.cell (cellOf a 1)) (m.cell (cellOf a 2)) (m.cell (cellOf a 3))

/-- `MemWrite(a, 32, v)` into storage (R63): all 32 bits change together. -/
def Memory.writeWord (m : Memory) (a : Addr) (v : Word) : Memory :=
  (((m.write (cellOf a 0) (byteOf v 0)).write (cellOf a 1) (byteOf v 1)).write
    (cellOf a 2) (byteOf v 2)).write (cellOf a 3) (byteOf v 3)

end Sys2Proof.Machine

namespace Sys2Proof

/-- The address lies in the region. -/
def Region.contains (r : Region) (a : Addr) : Bool :=
  r.base ≤ a.toNat && a.toNat < r.base + r.size

/-- `MEM_MAP` applied to an address (R70): the first region that holds it. -/
def MemMap.kindAt (m : MemMap) (a : Addr) : MemKind :=
  match m.regions.find? (fun r => r.contains a) with
  | some r => r.kind
  | none => m.elsewhere

end Sys2Proof
end

