-- ==== Sys2Proof/Syntax.lean ====
section
/-! DEFINITION. The instructions: one constructor for each of the 71 rows of spec/opcode_table.json,
in the table's order.  Operands are the fields of the word (spec/30_encoding.md R91): `rd`, `rs`, `rt`
register specifiers, `imm` the 16-bit immediate, `addr` an absolute 20-bit address, `off` a 20-bit
offset.  `brk` is the instruction `break`. -/

namespace Sys2Proof

inductive Instr where
  /-- `add Rd, Rs, Rt` (R131). -/
  | add (rd rs rt : Reg)
  /-- `addi Rd, Rs, Immediate` (R132). -/
  | addi (rd rs : Reg) (imm : Imm)
  /-- `addu Rd, Rs, Rt` (R133). -/
  | addu (rd rs rt : Reg)
  /-- `addui Rd, Rs, Immediate` (R134). -/
  | addui (rd rs : Reg) (imm : Imm)
  /-- `sub Rd, Rs, Rt` (R135). -/
  | sub (rd rs rt : Reg)
  /-- `subi Rd, Rs, Immediate` (R136). -/
  | subi (rd rs : Reg) (imm : Imm)
  /-- `subu Rd, Rs, Rt` (R137). -/
  | subu (rd rs rt : Reg)
  /-- `subui Rd, Rs, Immediate` (R138). -/
  | subui (rd rs : Reg) (imm : Imm)
  /-- `mult Rd, Rs, Rt` (R139). -/
  | mult (rd rs rt : Reg)
  /-- `multi Rd, Rs, Immediate` (R140). -/
  | multi (rd rs : Reg) (imm : Imm)
  /-- `multu Rd, Rs, Rt` (R141). -/
  | multu (rd rs rt : Reg)
  /-- `multui Rd, Rs, Immediate` (R142). -/
  | multui (rd rs : Reg) (imm : Imm)
  /-- `div Rd, Rs, Rt` (R143). -/
  | div (rd rs rt : Reg)
  /-- `divi Rd, Rs, Immediate` (R144). -/
  | divi (rd rs : Reg) (imm : Imm)
  /-- `divu Rd, Rs, Rt` (R145). -/
  | divu (rd rs rt : Reg)
  /-- `divui Rd, Rs, Immediate` (R146). -/
  | divui (rd rs : Reg) (imm : Imm)
  /-- `rem Rd, Rs, Rt` (R147). -/
  | rem (rd rs rt : Reg)
  /-- `remi Rd, Rs, Immediate` (R148). -/
  | remi (rd rs : Reg) (imm : Imm)
  /-- `remu Rd, Rs, Rt` (R149). -/
  | remu (rd rs rt : Reg)
  /-- `remui Rd, Rs, Immediate` (R150). -/
  | remui (rd rs : Reg) (imm : Imm)
  /-- `sll Rd, Rs, Rt` (R177). -/
  | sll (rd rs rt : Reg)
  /-- `slli Rd, Rs, Immediate` (R178). -/
  | slli (rd rs : Reg) (imm : Imm)
  /-- `and Rd, Rs, Rt` (R171). -/
  | and (rd rs rt : Reg)
  /-- `andi Rd, Rs, Immediate` (R172). -/
  | andi (rd rs : Reg) (imm : Imm)
  /-- `srl Rd, Rs, Rt` (R179). -/
  | srl (rd rs rt : Reg)
  /-- `srli Rd, Rs, Immediate` (R180). -/
  | srli (rd rs : Reg) (imm : Imm)
  /-- `or Rd, Rs, Rt` (R173). -/
  | or (rd rs rt : Reg)
  /-- `ori Rd, Rs, Immediate` (R174). -/
  | ori (rd rs : Reg) (imm : Imm)
  /-- `sra Rd, Rs, Rt` (R181). -/
  | sra (rd rs rt : Reg)
  /-- `srai Rd, Rs, Immediate` (R182). -/
  | srai (rd rs : Reg) (imm : Imm)
  /-- `xor Rd, Rs, Rt` (R175). -/
  | xor (rd rs rt : Reg)
  /-- `xori Rd, Rs, Immediate` (R176). -/
  | xori (rd rs : Reg) (imm : Imm)
  /-- `lhi Rd, Immediate` (R151). -/
  | lhi (rd : Reg) (imm : Imm)
  /-- `la Rd, Address` (R152). -/
  | la (rd : Reg) (addr : Addr)
  /-- `slt Rd, Rs, Rt` (R191). -/
  | slt (rd rs rt : Reg)
  /-- `slti Rd, Rs, Immediate` (R192). -/
  | slti (rd rs : Reg) (imm : Imm)
  /-- `sltu Rd, Rs, Rt` (R193). -/
  | sltu (rd rs rt : Reg)
  /-- `sltui Rd, Rs, Immediate` (R194). -/
  | sltui (rd rs : Reg) (imm : Imm)
  /-- `sgt Rd, Rs, Rt` (R195). -/
  | sgt (rd rs rt : Reg)
  /-- `sgti Rd, Rs, Immediate` (R196). -/
  | sgti (rd rs : Reg) (imm : Imm)
  /-- `sgtu Rd, Rs, Rt` (R197). -/
  | sgtu (rd rs rt : Reg)
  /-- `sgtui Rd, Rs, Immediate` (R198). -/
  | sgtui (rd rs : Reg) (imm : Imm)
  /-- `sle Rd, Rs, Rt` (R199). -/
  | sle (rd rs rt : Reg)
  /-- `slei Rd, Rs, Immediate` (R200). -/
  | slei (rd rs : Reg) (imm : Imm)
  /-- `sleu Rd, Rs, Rt` (R201). -/
  | sleu (rd rs rt : Reg)
  /-- `sleui Rd, Rs, Immediate` (R202). -/
  | sleui (rd rs : Reg) (imm : Imm)
  /-- `sge Rd, Rs, Rt` (R203). -/
  | sge (rd rs rt : Reg)
  /-- `sgei Rd, Rs, Immediate` (R204). -/
  | sgei (rd rs : Reg) (imm : Imm)
  /-- `sgeu Rd, Rs, Rt` (R205). -/
  | sgeu (rd rs rt : Reg)
  /-- `sgeui Rd, Rs, Immediate` (R206). -/
  | sgeui (rd rs : Reg) (imm : Imm)
  /-- `seq Rd, Rs, Rt` (R207). -/
  | seq (rd rs rt : Reg)
  /-- `seqi Rd, Rs, Immediate` (R208). -/
  | seqi (rd rs : Reg) (imm : Imm)
  /-- `sequ Rd, Rs, Rt` (R209). -/
  | sequ (rd rs rt : Reg)
  /-- `sequi Rd, Rs, Immediate` (R210). -/
  | sequi (rd rs : Reg) (imm : Imm)
  /-- `sne Rd, Rs, Rt` (R211). -/
  | sne (rd rs rt : Reg)
  /-- `snei Rd, Rs, Immediate` (R212). -/
  | snei (rd rs : Reg) (imm : Imm)
  /-- `sneu Rd, Rs, Rt` (R213). -/
  | sneu (rd rs rt : Reg)
  /-- `sneui Rd, Rs, Immediate` (R214). -/
  | sneui (rd rs : Reg) (imm : Imm)
  /-- `j Address` (R221). -/
  | j (addr : Addr)
  /-- `jr Rs` (R222). -/
  | jr (rs : Reg)
  /-- `jal Address` (R223). -/
  | jal (addr : Addr)
  /-- `jalr Rs` (R224). -/
  | jalr (rs : Reg)
  /-- `beqz Rs, Offset` (R225). -/
  | beqz (rs : Reg) (off : Addr)
  /-- `bnez Rs, Offset` (R226). -/
  | bnez (rs : Reg) (off : Addr)
  /-- `lw Rd, Offset(Rs)` (R236). -/
  | lw (rd rs : Reg) (off : Addr)
  /-- `sw Rd, Offset(Rs)` (R237). -/
  | sw (rd rs : Reg) (off : Addr)
  /-- `movgs Rd, Rs` (R246). -/
  | movgs (rd rs : Reg)
  /-- `movsg Rd, Rs` (R247). -/
  | movsg (rd rs : Reg)
  /-- `break` (R248). -/
  | brk
  /-- `syscall` (R249). -/
  | syscall
  /-- `rfe` (R250). -/
  | rfe
deriving DecidableEq, Repr

/-- The mnemonic of spec/opcode_table.json. -/
def Instr.mnemonic : Instr → String
  | .add _ _ _ => "add"
  | .addi _ _ _ => "addi"
  | .addu _ _ _ => "addu"
  | .addui _ _ _ => "addui"
  | .sub _ _ _ => "sub"
  | .subi _ _ _ => "subi"
  | .subu _ _ _ => "subu"
  | .subui _ _ _ => "subui"
  | .mult _ _ _ => "mult"
  | .multi _ _ _ => "multi"
  | .multu _ _ _ => "multu"
  | .multui _ _ _ => "multui"
  | .div _ _ _ => "div"
  | .divi _ _ _ => "divi"
  | .divu _ _ _ => "divu"
  | .divui _ _ _ => "divui"
  | .rem _ _ _ => "rem"
  | .remi _ _ _ => "remi"
  | .remu _ _ _ => "remu"
  | .remui _ _ _ => "remui"
  | .sll _ _ _ => "sll"
  | .slli _ _ _ => "slli"
  | .and _ _ _ => "and"
  | .andi _ _ _ => "andi"
  | .srl _ _ _ => "srl"
  | .srli _ _ _ => "srli"
  | .or _ _ _ => "or"
  | .ori _ _ _ => "ori"
  | .sra _ _ _ => "sra"
  | .srai _ _ _ => "srai"
  | .xor _ _ _ => "xor"
  | .xori _ _ _ => "xori"
  | .lhi _ _ => "lhi"
  | .la _ _ => "la"
  | .slt _ _ _ => "slt"
  | .slti _ _ _ => "slti"
  | .sltu _ _ _ => "sltu"
  | .sltui _ _ _ => "sltui"
  | .sgt _ _ _ => "sgt"
  | .sgti _ _ _ => "sgti"
  | .sgtu _ _ _ => "sgtu"
  | .sgtui _ _ _ => "sgtui"
  | .sle _ _ _ => "sle"
  | .slei _ _ _ => "slei"
  | .sleu _ _ _ => "sleu"
  | .sleui _ _ _ => "sleui"
  | .sge _ _ _ => "sge"
  | .sgei _ _ _ => "sgei"
  | .sgeu _ _ _ => "sgeu"
  | .sgeui _ _ _ => "sgeui"
  | .seq _ _ _ => "seq"
  | .seqi _ _ _ => "seqi"
  | .sequ _ _ _ => "sequ"
  | .sequi _ _ _ => "sequi"
  | .sne _ _ _ => "sne"
  | .snei _ _ _ => "snei"
  | .sneu _ _ _ => "sneu"
  | .sneui _ _ _ => "sneui"
  | .j _ => "j"
  | .jr _ => "jr"
  | .jal _ => "jal"
  | .jalr _ => "jalr"
  | .beqz _ _ => "beqz"
  | .bnez _ _ => "bnez"
  | .lw _ _ _ => "lw"
  | .sw _ _ _ => "sw"
  | .movgs _ _ => "movgs"
  | .movsg _ _ => "movsg"
  | .brk => "break"
  | .syscall => "syscall"
  | .rfe => "rfe"

end Sys2Proof
end

