-- ==== Sys2Proof/Decode.lean ====
section
/-! DEFINITION. Decoding a word into an instruction, and encoding an instruction into its word
(spec/30_encoding.md).  Decoding depends on nothing but the word (R90, R93). -/

namespace Sys2Proof

/-- Why a word is no instruction: the ten items of R113, in its order, and an incomplete word. -/
inductive DecodeError where
  /-- R113 item 1: `op` 1101, 1110 or 1111. -/
  | reservedOpcode
  /-- R113 item 2: `op` 0010 or 0011 with `func` 1111. -/
  | unusedFunction
  /-- R113 item 3: a register form with bits 15:4 not zero. -/
  | registerFormZeros
  /-- R113 item 4: `break`, `syscall` or `rfe` with bits 27:20 or 15:0 not zero. -/
  | exceptionFormZeros
  /-- R113 item 5: `movgs` or `movsg` with bits 15:0 not zero. -/
  | specialMoveZeros
  /-- R113 item 6: `lhi` with bits 23:20 not zero. -/
  | loadHighSource
  /-- R113 item 7: `j` or `jal` with bits 27:20 not zero. -/
  | jumpRegisters
  /-- R113 item 8: `jr` or `jalr` with bits 27:24 or 19:0 not zero. -/
  | registerJumpFields
  /-- R113 item 9: `beqz` or `bnez` with bits 27:24 not zero. -/
  | branchDestination
  /-- R113 item 10: `la` with bits 23:20 not zero. -/
  | loadAddressSource
  /-- Fewer than the four bytes of a word (R90). -/
  | truncated
deriving DecidableEq, Repr

/-- `op`, bits 31:28 (R91). -/
def opOf (w : Word) : BitVec 4 := w.extractLsb' 28 4

/-- `rd`, bits 27:24 (R91). -/
def rdOf (w : Word) : Reg := w.extractLsb' 24 4

/-- `rs`, bits 23:20 (R91). -/
def rsOf (w : Word) : Reg := w.extractLsb' 20 4

/-- `func`, bits 19:16 (R91). -/
def funcOf (w : Word) : BitVec 4 := w.extractLsb' 16 4

/-- `imm16`, bits 15:0 (R91). -/
def immOf (w : Word) : Imm := w.extractLsb' 0 16

/-- `zero12`, bits 15:4 (R91). -/
def zerosOf (w : Word) : BitVec 12 := w.extractLsb' 4 12

/-- `rt`, bits 3:0 (R91). -/
def rtOf (w : Word) : Reg := w.extractLsb' 0 4

/-- `addr20`, bits 19:0 (R91). -/
def addrOf (w : Word) : Addr := w.extractLsb' 0 20

/-- R95, `op` 0000: the register forms of the arithmetic and bitwise instructions. -/
def arithReg (w : Word) : Instr :=
  match (funcOf w).toNat with
  | 0 => .add (rdOf w) (rsOf w) (rtOf w)
  | 1 => .addu (rdOf w) (rsOf w) (rtOf w)
  | 2 => .sub (rdOf w) (rsOf w) (rtOf w)
  | 3 => .subu (rdOf w) (rsOf w) (rtOf w)
  | 4 => .mult (rdOf w) (rsOf w) (rtOf w)
  | 5 => .multu (rdOf w) (rsOf w) (rtOf w)
  | 6 => .div (rdOf w) (rsOf w) (rtOf w)
  | 7 => .divu (rdOf w) (rsOf w) (rtOf w)
  | 8 => .rem (rdOf w) (rsOf w) (rtOf w)
  | 9 => .remu (rdOf w) (rsOf w) (rtOf w)
  | 10 => .sll (rdOf w) (rsOf w) (rtOf w)
  | 11 => .and (rdOf w) (rsOf w) (rtOf w)
  | 12 => .srl (rdOf w) (rsOf w) (rtOf w)
  | 13 => .or (rdOf w) (rsOf w) (rtOf w)
  | 14 => .sra (rdOf w) (rsOf w) (rtOf w)
  | _ => .xor (rdOf w) (rsOf w) (rtOf w)

/-- R95, `op` 0001: the immediate forms. -/
def arithImm (w : Word) : Instr :=
  match (funcOf w).toNat with
  | 0 => .addi (rdOf w) (rsOf w) (immOf w)
  | 1 => .addui (rdOf w) (rsOf w) (immOf w)
  | 2 => .subi (rdOf w) (rsOf w) (immOf w)
  | 3 => .subui (rdOf w) (rsOf w) (immOf w)
  | 4 => .multi (rdOf w) (rsOf w) (immOf w)
  | 5 => .multui (rdOf w) (rsOf w) (immOf w)
  | 6 => .divi (rdOf w) (rsOf w) (immOf w)
  | 7 => .divui (rdOf w) (rsOf w) (immOf w)
  | 8 => .remi (rdOf w) (rsOf w) (immOf w)
  | 9 => .remui (rdOf w) (rsOf w) (immOf w)
  | 10 => .slli (rdOf w) (rsOf w) (immOf w)
  | 11 => .andi (rdOf w) (rsOf w) (immOf w)
  | 12 => .srli (rdOf w) (rsOf w) (immOf w)
  | 13 => .ori (rdOf w) (rsOf w) (immOf w)
  | 14 => .srai (rdOf w) (rsOf w) (immOf w)
  | _ => .xori (rdOf w) (rsOf w) (immOf w)

/-- R108, R113 item 3: a register form has bits 15:4 zero. -/
def withZeros (w : Word) (i : Instr) : Except DecodeError Instr :=
  if zerosOf w = 0#12 then .ok i else .error .registerFormZeros

/-- R108, R113 item 4: `break`, `syscall`, `rfe` have bits 27:20 and 15:0 zero. -/
def exceptionForm (w : Word) (i : Instr) : Except DecodeError Instr :=
  if rdOf w = 0#4 ∧ rsOf w = 0#4 ∧ immOf w = 0#16 then .ok i else .error .exceptionFormZeros

/-- R108, R113 item 5: `movgs`, `movsg` have bits 15:0 zero. -/
def specialMove (w : Word) (i : Instr) : Except DecodeError Instr :=
  if immOf w = 0#16 then .ok i else .error .specialMoveZeros

/-- R96, `op` 0010: the register forms of the test instructions; `break`, `syscall`, `rfe`. -/
def testReg (w : Word) : Except DecodeError Instr :=
  match (funcOf w).toNat with
  | 0 => withZeros w (.slt (rdOf w) (rsOf w) (rtOf w))
  | 1 => withZeros w (.sltu (rdOf w) (rsOf w) (rtOf w))
  | 2 => withZeros w (.sgt (rdOf w) (rsOf w) (rtOf w))
  | 3 => withZeros w (.sgtu (rdOf w) (rsOf w) (rtOf w))
  | 4 => withZeros w (.sle (rdOf w) (rsOf w) (rtOf w))
  | 5 => withZeros w (.sleu (rdOf w) (rsOf w) (rtOf w))
  | 6 => withZeros w (.sge (rdOf w) (rsOf w) (rtOf w))
  | 7 => withZeros w (.sgeu (rdOf w) (rsOf w) (rtOf w))
  | 8 => withZeros w (.seq (rdOf w) (rsOf w) (rtOf w))
  | 9 => withZeros w (.sequ (rdOf w) (rsOf w) (rtOf w))
  | 10 => withZeros w (.sne (rdOf w) (rsOf w) (rtOf w))
  | 11 => withZeros w (.sneu (rdOf w) (rsOf w) (rtOf w))
  | 12 => exceptionForm w .brk
  | 13 => exceptionForm w .syscall
  | 14 => exceptionForm w .rfe
  | _ => .error .unusedFunction

/-- R96, `op` 0011: the immediate forms of the test instructions; `movgs`, `movsg`, `lhi`. -/
def testImm (w : Word) : Except DecodeError Instr :=
  match (funcOf w).toNat with
  | 0 => .ok (.slti (rdOf w) (rsOf w) (immOf w))
  | 1 => .ok (.sltui (rdOf w) (rsOf w) (immOf w))
  | 2 => .ok (.sgti (rdOf w) (rsOf w) (immOf w))
  | 3 => .ok (.sgtui (rdOf w) (rsOf w) (immOf w))
  | 4 => .ok (.slei (rdOf w) (rsOf w) (immOf w))
  | 5 => .ok (.sleui (rdOf w) (rsOf w) (immOf w))
  | 6 => .ok (.sgei (rdOf w) (rsOf w) (immOf w))
  | 7 => .ok (.sgeui (rdOf w) (rsOf w) (immOf w))
  | 8 => .ok (.seqi (rdOf w) (rsOf w) (immOf w))
  | 9 => .ok (.sequi (rdOf w) (rsOf w) (immOf w))
  | 10 => .ok (.snei (rdOf w) (rsOf w) (immOf w))
  | 11 => .ok (.sneui (rdOf w) (rsOf w) (immOf w))
  | 12 => specialMove w (.movgs (rdOf w) (rsOf w))
  | 13 => specialMove w (.movsg (rdOf w) (rsOf w))
  | 14 => if rsOf w = 0#4 then .ok (.lhi (rdOf w) (immOf w)) else .error .loadHighSource
  | _ => .error .unusedFunction

/-- R97, R113 item 7: `j` and `jal`. -/
def absoluteJump (w : Word) (i : Instr) : Except DecodeError Instr :=
  if rdOf w = 0#4 ∧ rsOf w = 0#4 then .ok i else .error .jumpRegisters

/-- R97, R113 item 8: `jr` and `jalr`. -/
def registerJump (w : Word) (i : Instr) : Except DecodeError Instr :=
  if rdOf w = 0#4 ∧ addrOf w = 0#20 then .ok i else .error .registerJumpFields

/-- R97, R113 item 9: `beqz` and `bnez`. -/
def relativeBranch (w : Word) (i : Instr) : Except DecodeError Instr :=
  if rdOf w = 0#4 then .ok i else .error .branchDestination

/-- R93, R94: the instruction a word is, or why it is reserved. -/
def decodeWord (w : Word) : Except DecodeError Instr :=
  match (opOf w).toNat with
  | 0 => withZeros w (arithReg w)
  | 1 => .ok (arithImm w)
  | 2 => testReg w
  | 3 => testImm w
  | 4 => absoluteJump w (.j (addrOf w))
  | 5 => registerJump w (.jr (rsOf w))
  | 6 => absoluteJump w (.jal (addrOf w))
  | 7 => registerJump w (.jalr (rsOf w))
  | 8 => .ok (.lw (rdOf w) (rsOf w) (addrOf w))
  | 9 => .ok (.sw (rdOf w) (rsOf w) (addrOf w))
  | 10 => relativeBranch w (.beqz (rsOf w) (addrOf w))
  | 11 => relativeBranch w (.bnez (rsOf w) (addrOf w))
  | 12 => if rsOf w = 0#4 then .ok (.la (rdOf w) (addrOf w)) else .error .loadAddressSource
  | _ => .error .reservedOpcode

/-- The constant-zero bits an error is about (R108); none where no `op` and `func` match. -/
def DecodeError.constantField : DecodeError → Word
  | .registerFormZeros => 0x0000FFF0#32
  | .exceptionFormZeros => 0x0FF0FFFF#32
  | .specialMoveZeros => 0x0000FFFF#32
  | .loadHighSource => 0x00F00000#32
  | .jumpRegisters => 0x0FF00000#32
  | .registerJumpFields => 0x0F0FFFFF#32
  | .branchDestination => 0x0F000000#32
  | .loadAddressSource => 0x00F00000#32
  | .reservedOpcode | .unusedFunction | .truncated => 0#32

/-- The policies do not check the field the error is about: `MBZ_POLICY = ignore` checks none (D14),
`LHI_RS_IGNORED` not the `rs` field of `lhi` (R109, D15). -/
def DecodeError.unchecked (mbz : MbzPolicy) (lhiRsIgnored : Bool) : DecodeError → Bool
  | .loadHighSource => lhiRsIgnored || mbz == .ignore
  | .registerFormZeros | .exceptionFormZeros | .specialMoveZeros | .jumpRegisters
  | .registerJumpFields | .branchDestination | .loadAddressSource => mbz == .ignore
  | .reservedOpcode | .unusedFunction | .truncated => false

/-- R93 under the policies of R108 and R109: a word whose only fault is a field that is not checked is
the instruction it would be with that field zero. -/
def decodeUnder (mbz : MbzPolicy) (lhiRsIgnored : Bool) (w : Word) : Except DecodeError Instr :=
  match decodeWord w with
  | .ok i => .ok i
  | .error e =>
    if e.unchecked mbz lhiRsIgnored then decodeWord (w &&& ~~~e.constantField) else .error e

/-- The instruction at the front of a run of bytes, and what follows it: four bytes, as a word lies
in its cells (`Machine.cellOf`). -/
def decode : List Byte → Except DecodeError (Instr × List Byte)
  | b0 :: b1 :: b2 :: b3 :: rest =>
    match decodeWord (Machine.wordOfBytes b0 b1 b2 b3) with
    | .ok i => .ok (i, rest)
    | .error e => .error e
  | _ => .error .truncated

/-- The R-type format (R92). -/
def encodeR (op : BitVec 4) (rd rs : Reg) (func : BitVec 4) (rt : Reg) : Word :=
  op ++ rd ++ rs ++ func ++ 0#12 ++ rt

/-- The I-type format (R92). -/
def encodeI (op : BitVec 4) (rd rs : Reg) (func : BitVec 4) (imm : Imm) : Word :=
  op ++ rd ++ rs ++ func ++ imm

/-- The J-type format (R92). -/
def encodeJ (op : BitVec 4) (rd rs : Reg) (addr : Addr) : Word :=
  op ++ rd ++ rs ++ addr

/-- The word of an instruction (R94 to R97), every constant field zero (R108). -/
def encode : Instr → Word
  | .add rd rs rt => encodeR 0b0000#4 rd rs 0b0000#4 rt
  | .addi rd rs imm => encodeI 0b0001#4 rd rs 0b0000#4 imm
  | .addu rd rs rt => encodeR 0b0000#4 rd rs 0b0001#4 rt
  | .addui rd rs imm => encodeI 0b0001#4 rd rs 0b0001#4 imm
  | .sub rd rs rt => encodeR 0b0000#4 rd rs 0b0010#4 rt
  | .subi rd rs imm => encodeI 0b0001#4 rd rs 0b0010#4 imm
  | .subu rd rs rt => encodeR 0b0000#4 rd rs 0b0011#4 rt
  | .subui rd rs imm => encodeI 0b0001#4 rd rs 0b0011#4 imm
  | .mult rd rs rt => encodeR 0b0000#4 rd rs 0b0100#4 rt
  | .multi rd rs imm => encodeI 0b0001#4 rd rs 0b0100#4 imm
  | .multu rd rs rt => encodeR 0b0000#4 rd rs 0b0101#4 rt
  | .multui rd rs imm => encodeI 0b0001#4 rd rs 0b0101#4 imm
  | .div rd rs rt => encodeR 0b0000#4 rd rs 0b0110#4 rt
  | .divi rd rs imm => encodeI 0b0001#4 rd rs 0b0110#4 imm
  | .divu rd rs rt => encodeR 0b0000#4 rd rs 0b0111#4 rt
  | .divui rd rs imm => encodeI 0b0001#4 rd rs 0b0111#4 imm
  | .rem rd rs rt => encodeR 0b0000#4 rd rs 0b1000#4 rt
  | .remi rd rs imm => encodeI 0b0001#4 rd rs 0b1000#4 imm
  | .remu rd rs rt => encodeR 0b0000#4 rd rs 0b1001#4 rt
  | .remui rd rs imm => encodeI 0b0001#4 rd rs 0b1001#4 imm
  | .sll rd rs rt => encodeR 0b0000#4 rd rs 0b1010#4 rt
  | .slli rd rs imm => encodeI 0b0001#4 rd rs 0b1010#4 imm
  | .and rd rs rt => encodeR 0b0000#4 rd rs 0b1011#4 rt
  | .andi rd rs imm => encodeI 0b0001#4 rd rs 0b1011#4 imm
  | .srl rd rs rt => encodeR 0b0000#4 rd rs 0b1100#4 rt
  | .srli rd rs imm => encodeI 0b0001#4 rd rs 0b1100#4 imm
  | .or rd rs rt => encodeR 0b0000#4 rd rs 0b1101#4 rt
  | .ori rd rs imm => encodeI 0b0001#4 rd rs 0b1101#4 imm
  | .sra rd rs rt => encodeR 0b0000#4 rd rs 0b1110#4 rt
  | .srai rd rs imm => encodeI 0b0001#4 rd rs 0b1110#4 imm
  | .xor rd rs rt => encodeR 0b0000#4 rd rs 0b1111#4 rt
  | .xori rd rs imm => encodeI 0b0001#4 rd rs 0b1111#4 imm
  | .lhi rd imm => encodeI 0b0011#4 rd 0#4 0b1110#4 imm
  | .la rd addr => encodeJ 0b1100#4 rd 0#4 addr
  | .slt rd rs rt => encodeR 0b0010#4 rd rs 0b0000#4 rt
  | .slti rd rs imm => encodeI 0b0011#4 rd rs 0b0000#4 imm
  | .sltu rd rs rt => encodeR 0b0010#4 rd rs 0b0001#4 rt
  | .sltui rd rs imm => encodeI 0b0011#4 rd rs 0b0001#4 imm
  | .sgt rd rs rt => encodeR 0b0010#4 rd rs 0b0010#4 rt
  | .sgti rd rs imm => encodeI 0b0011#4 rd rs 0b0010#4 imm
  | .sgtu rd rs rt => encodeR 0b0010#4 rd rs 0b0011#4 rt
  | .sgtui rd rs imm => encodeI 0b0011#4 rd rs 0b0011#4 imm
  | .sle rd rs rt => encodeR 0b0010#4 rd rs 0b0100#4 rt
  | .slei rd rs imm => encodeI 0b0011#4 rd rs 0b0100#4 imm
  | .sleu rd rs rt => encodeR 0b0010#4 rd rs 0b0101#4 rt
  | .sleui rd rs imm => encodeI 0b0011#4 rd rs 0b0101#4 imm
  | .sge rd rs rt => encodeR 0b0010#4 rd rs 0b0110#4 rt
  | .sgei rd rs imm => encodeI 0b0011#4 rd rs 0b0110#4 imm
  | .sgeu rd rs rt => encodeR 0b0010#4 rd rs 0b0111#4 rt
  | .sgeui rd rs imm => encodeI 0b0011#4 rd rs 0b0111#4 imm
  | .seq rd rs rt => encodeR 0b0010#4 rd rs 0b1000#4 rt
  | .seqi rd rs imm => encodeI 0b0011#4 rd rs 0b1000#4 imm
  | .sequ rd rs rt => encodeR 0b0010#4 rd rs 0b1001#4 rt
  | .sequi rd rs imm => encodeI 0b0011#4 rd rs 0b1001#4 imm
  | .sne rd rs rt => encodeR 0b0010#4 rd rs 0b1010#4 rt
  | .snei rd rs imm => encodeI 0b0011#4 rd rs 0b1010#4 imm
  | .sneu rd rs rt => encodeR 0b0010#4 rd rs 0b1011#4 rt
  | .sneui rd rs imm => encodeI 0b0011#4 rd rs 0b1011#4 imm
  | .j addr => encodeJ 0b0100#4 0#4 0#4 addr
  | .jr rs => encodeJ 0b0101#4 0#4 rs 0#20
  | .jal addr => encodeJ 0b0110#4 0#4 0#4 addr
  | .jalr rs => encodeJ 0b0111#4 0#4 rs 0#20
  | .beqz rs off => encodeJ 0b1010#4 0#4 rs off
  | .bnez rs off => encodeJ 0b1011#4 0#4 rs off
  | .lw rd rs off => encodeJ 0b1000#4 rd rs off
  | .sw rd rs off => encodeJ 0b1001#4 rd rs off
  | .movgs rd rs => encodeI 0b0011#4 rd rs 0b1100#4 0#16
  | .movsg rd rs => encodeI 0b0011#4 rd rs 0b1101#4 0#16
  | .brk => encodeR 0b0010#4 0#4 0#4 0b1100#4 0#4
  | .syscall => encodeR 0b0010#4 0#4 0#4 0b1101#4 0#4
  | .rfe => encodeR 0b0010#4 0#4 0#4 0b1110#4 0#4

/-- A row of the opcode table: word `w` is the instruction exactly when `w &&& mask = pattern` (R93). -/
structure OpcodeRow where
  mnemonic : String
  pattern : Word
  mask : Word
deriving DecidableEq, Repr

/-- The rows of spec/opcode_table.json for the arithmetic family. -/
def arithmeticRows : List OpcodeRow := [
  ⟨"add", 0x00000000#32, 0xF00FFFF0#32⟩,
  ⟨"addi", 0x10000000#32, 0xF00F0000#32⟩,
  ⟨"addu", 0x00010000#32, 0xF00FFFF0#32⟩,
  ⟨"addui", 0x10010000#32, 0xF00F0000#32⟩,
  ⟨"sub", 0x00020000#32, 0xF00FFFF0#32⟩,
  ⟨"subi", 0x10020000#32, 0xF00F0000#32⟩,
  ⟨"subu", 0x00030000#32, 0xF00FFFF0#32⟩,
  ⟨"subui", 0x10030000#32, 0xF00F0000#32⟩,
  ⟨"mult", 0x00040000#32, 0xF00FFFF0#32⟩,
  ⟨"multi", 0x10040000#32, 0xF00F0000#32⟩,
  ⟨"multu", 0x00050000#32, 0xF00FFFF0#32⟩,
  ⟨"multui", 0x10050000#32, 0xF00F0000#32⟩,
  ⟨"div", 0x00060000#32, 0xF00FFFF0#32⟩,
  ⟨"divi", 0x10060000#32, 0xF00F0000#32⟩,
  ⟨"divu", 0x00070000#32, 0xF00FFFF0#32⟩,
  ⟨"divui", 0x10070000#32, 0xF00F0000#32⟩,
  ⟨"rem", 0x00080000#32, 0xF00FFFF0#32⟩,
  ⟨"remi", 0x10080000#32, 0xF00F0000#32⟩,
  ⟨"remu", 0x00090000#32, 0xF00FFFF0#32⟩,
  ⟨"remui", 0x10090000#32, 0xF00F0000#32⟩]

/-- The rows of spec/opcode_table.json for the bitwise family. -/
def bitwiseRows : List OpcodeRow := [
  ⟨"sll", 0x000A0000#32, 0xF00FFFF0#32⟩,
  ⟨"slli", 0x100A0000#32, 0xF00F0000#32⟩,
  ⟨"and", 0x000B0000#32, 0xF00FFFF0#32⟩,
  ⟨"andi", 0x100B0000#32, 0xF00F0000#32⟩,
  ⟨"srl", 0x000C0000#32, 0xF00FFFF0#32⟩,
  ⟨"srli", 0x100C0000#32, 0xF00F0000#32⟩,
  ⟨"or", 0x000D0000#32, 0xF00FFFF0#32⟩,
  ⟨"ori", 0x100D0000#32, 0xF00F0000#32⟩,
  ⟨"sra", 0x000E0000#32, 0xF00FFFF0#32⟩,
  ⟨"srai", 0x100E0000#32, 0xF00F0000#32⟩,
  ⟨"xor", 0x000F0000#32, 0xF00FFFF0#32⟩,
  ⟨"xori", 0x100F0000#32, 0xF00F0000#32⟩]

/-- The rows of spec/opcode_table.json for the arithmetic family. -/
def loadConstantRows : List OpcodeRow := [
  ⟨"lhi", 0x300E0000#32, 0xF0FF0000#32⟩,
  ⟨"la", 0xC0000000#32, 0xF0F00000#32⟩]

/-- The rows of spec/opcode_table.json for the test family. -/
def testRows : List OpcodeRow := [
  ⟨"slt", 0x20000000#32, 0xF00FFFF0#32⟩,
  ⟨"slti", 0x30000000#32, 0xF00F0000#32⟩,
  ⟨"sltu", 0x20010000#32, 0xF00FFFF0#32⟩,
  ⟨"sltui", 0x30010000#32, 0xF00F0000#32⟩,
  ⟨"sgt", 0x20020000#32, 0xF00FFFF0#32⟩,
  ⟨"sgti", 0x30020000#32, 0xF00F0000#32⟩,
  ⟨"sgtu", 0x20030000#32, 0xF00FFFF0#32⟩,
  ⟨"sgtui", 0x30030000#32, 0xF00F0000#32⟩,
  ⟨"sle", 0x20040000#32, 0xF00FFFF0#32⟩,
  ⟨"slei", 0x30040000#32, 0xF00F0000#32⟩,
  ⟨"sleu", 0x20050000#32, 0xF00FFFF0#32⟩,
  ⟨"sleui", 0x30050000#32, 0xF00F0000#32⟩,
  ⟨"sge", 0x20060000#32, 0xF00FFFF0#32⟩,
  ⟨"sgei", 0x30060000#32, 0xF00F0000#32⟩,
  ⟨"sgeu", 0x20070000#32, 0xF00FFFF0#32⟩,
  ⟨"sgeui", 0x30070000#32, 0xF00F0000#32⟩,
  ⟨"seq", 0x20080000#32, 0xF00FFFF0#32⟩,
  ⟨"seqi", 0x30080000#32, 0xF00F0000#32⟩,
  ⟨"sequ", 0x20090000#32, 0xF00FFFF0#32⟩,
  ⟨"sequi", 0x30090000#32, 0xF00F0000#32⟩,
  ⟨"sne", 0x200A0000#32, 0xF00FFFF0#32⟩,
  ⟨"snei", 0x300A0000#32, 0xF00F0000#32⟩,
  ⟨"sneu", 0x200B0000#32, 0xF00FFFF0#32⟩,
  ⟨"sneui", 0x300B0000#32, 0xF00F0000#32⟩]

/-- The rows of spec/opcode_table.json for the branch family. -/
def branchRows : List OpcodeRow := [
  ⟨"j", 0x40000000#32, 0xFFF00000#32⟩,
  ⟨"jr", 0x50000000#32, 0xFF0FFFFF#32⟩,
  ⟨"jal", 0x60000000#32, 0xFFF00000#32⟩,
  ⟨"jalr", 0x70000000#32, 0xFF0FFFFF#32⟩,
  ⟨"beqz", 0xA0000000#32, 0xFF000000#32⟩,
  ⟨"bnez", 0xB0000000#32, 0xFF000000#32⟩]

/-- The rows of spec/opcode_table.json for the memory family. -/
def memoryRows : List OpcodeRow := [
  ⟨"lw", 0x80000000#32, 0xF0000000#32⟩,
  ⟨"sw", 0x90000000#32, 0xF0000000#32⟩]

/-- The rows of spec/opcode_table.json for the special family. -/
def specialRows : List OpcodeRow := [
  ⟨"movgs", 0x300C0000#32, 0xF00FFFFF#32⟩,
  ⟨"movsg", 0x300D0000#32, 0xF00FFFFF#32⟩,
  ⟨"break", 0x200C0000#32, 0xFFFFFFFF#32⟩,
  ⟨"syscall", 0x200D0000#32, 0xFFFFFFFF#32⟩,
  ⟨"rfe", 0x200E0000#32, 0xFFFFFFFF#32⟩]

/-- The 71 rows of spec/opcode_table.json, in its order (R93). -/
def opcodeRows : List OpcodeRow :=
  arithmeticRows ++ bitwiseRows ++ loadConstantRows ++ testRows ++ branchRows ++ memoryRows ++ specialRows

/-- The instruction this decoder reads from bits numbered as spec/opcode_table.json numbers them,
bit 0 the least significant; every bit above `nbits` is zero. -/
def decodeTableWord (nbits w : Nat) : Option Instr :=
  match decode (Machine.bytesOfWord (BitVec.ofNat 32 (w % 2 ^ nbits))) with
  | .ok (i, _) => some i
  | .error _ => none

end Sys2Proof
end

