-- ==== Sys2Proof/Machine/Flags.lean ====
section
/-! DEFINITION. The machine has no flags (spec/10_state.md R46).  What other machines report in a flag
is here the condition of an exception: overflow and a zero divisor (40_arithmetic.md R153, R154). -/

namespace Sys2Proof.Machine

/-- R153: signed overflow, the exact result is outside -2^31 to 2^31-1. -/
def signedOverflow (r : Int) : Bool := r < -2147483648 || 2147483647 < r

/-- R153: unsigned overflow, the exact result is outside 0 to 2^32-1. -/
def unsignedOverflow (r : Int) : Bool := r < 0 || 4294967295 < r

/-- R154, R263: the divisor is zero. -/
def zeroDivisor (b : Word) : Bool := b == 0#32

/-- D11: `0x80000000` divided by -1, the one signed quotient that does not fit. -/
def minByMinusOne (a b : Word) : Bool := a == 0x80000000#32 && b == 0xFFFFFFFF#32

/-- R190: the value a comparison writes. -/
def truth (holds : Bool) : Word := if holds then 1#32 else 0#32

end Sys2Proof.Machine
end

