-- ==== Sys2Proof/Machine/Operands.lean ====
section
/-! DEFINITION. Every operand form of the spec (spec/30_encoding.md R100 to R106), the address
computations, and the arithmetic of the 32-bit results. -/

namespace Sys2Proof.Machine

/-- R100: the sign-extended immediate. -/
def sext (imm : Imm) : Word := imm.signExtend 32

/-- R101: the zero-extended immediate. -/
def zext (imm : Imm) : Word := imm.setWidth 32

/-- R102: the shift amount in the low five bits of a register. -/
def shiftOfWord (v : Word) : Nat := (v.extractLsb' 0 5).toNat

/-- R102: the shift amount in the low five bits of an immediate. -/
def shiftOfImm (imm : Imm) : Nat := (imm.extractLsb' 0 5).toNat

/-- R103: the immediate in the upper half, zeros in the lower. -/
def high (imm : Imm) : Word := imm ++ 0#16

/-- R104, decision D6: a 20-bit address written to a register, bits 31:20 zero. -/
def wordOfAddr (a : Addr) : Word := a.setWidth 32

/-- R222, R274, decisions D4 and D33: the address in the low 20 bits of a word. -/
def addrOfWord (v : Word) : Addr := v.extractLsb' 0 20

/-- R235: the effective address, a 32-bit sum that wraps and never traps. -/
def effectiveAddress (base : Word) (off : Addr) : Word :=
  to32 (base.toNat + (off.signExtend 32).toInt)

/-- R68, R235: the word address an effective address accesses, its low 20 bits (decision D4). -/
def accessAddress (base : Word) (off : Addr) : Addr := addrOfWord (effectiveAddress base off)

/-- R68, decision D4: bits 31:20 of an effective address are not all 0. -/
def beyondSpace (ea : Word) : Bool := ea.extractLsb' 20 12 != 0#12

/-- R105, R225, decision D7: the sum of the base and the signed offset, before it is reduced. -/
def branchSum (base : BranchBase) (pc : Addr) (off : Addr) : Int :=
  match base with
  | .next => pc.toNat + 1 + off.toInt
  | .current => pc.toNat + off.toInt

/-- R225: the branch target, modulo 2^20 (decision D5). -/
def branchTarget (base : BranchBase) (pc : Addr) (off : Addr) : Addr :=
  BitVec.ofInt 20 (branchSum base pc off)

/-- R154, decision D10: the quotient of two integers, rounded toward zero or down. -/
def quotient (round : DivRound) (a b : Int) : Int :=
  match round with
  | .towardZero => a.tdiv b
  | .floor => a.fdiv b

/-- R154: the signed quotient; -2^31 by -1 wraps (D11). -/
def signedQuotient (round : DivRound) (a b : Word) : Word := to32 (quotient round a.toInt b.toInt)

/-- R147, R154: the signed remainder, `sint(a) - q * sint(b)`. -/
def signedRemainder (round : DivRound) (a b : Word) : Word :=
  to32 (a.toInt - quotient round a.toInt b.toInt * b.toInt)

/-- R145, R154: the unsigned quotient. -/
def unsignedQuotient (a b : Word) : Word := to32 (a.toNat / b.toNat : Nat)

/-- R149, R154: the unsigned remainder. -/
def unsignedRemainder (a b : Word) : Word := to32 (a.toNat % b.toNat : Nat)

/-- R177: `a << n`, bits shifted out are lost. -/
def shiftLeft (a : Word) (n : Nat) : Word := a <<< n

/-- R179: `a >>u n`, zeros in the high order bits. -/
def shiftRight (a : Word) (n : Nat) : Word := a >>> n

/-- R181: `a >>s n`, copies of bit 31 in the high order bits. -/
def shiftRightArith (a : Word) (n : Nat) : Word := a.sshiftRight n

end Sys2Proof.Machine
end

