-- ==== Sys2Proof/Machine/Special.lean ====
section
/-! DEFINITION. The special purpose registers under a layout: which register a specifier names and
which of them software may write (spec/10_state.md R38, R41). -/

namespace Sys2Proof

/-- R41: the special register a specifier names, if there is one. -/
def SprLayout.named? (l : SprLayout) (n : Reg) : Option Special := l.slots.get n.toFin

/-- R41: `movgs` may write the register. -/
def SprLayout.writable (l : SprLayout) (k : Special) : Bool := !l.readOnly.contains k

/-- The specifier names a special register `movsg` can read (R247). -/
def SprLayout.readableAt (l : SprLayout) (n : Reg) : Bool := (l.named? n).isSome

/-- The specifier names a special register `movgs` can write (R246). -/
def SprLayout.writableAt (l : SprLayout) (n : Reg) : Bool := (l.named? n).any l.writable

end Sys2Proof

namespace Sys2Proof.Machine

/-- A word with the one bit `k`, or zero. -/
def bitAt (b : Bool) (k : Nat) : Word := (BitVec.ofBool b).setWidth 32 <<< k

/-- The eight bits of a mask, the lowest at bit `k`. -/
def byteAt (v : BitVec 8) (k : Nat) : Word := v.setWidth 32 <<< k

/-- R42: the bits of `$cctrl` a layout gives a field. -/
def cctrlFields (l : SprLayout) : Word :=
  byteAt 0xFF#8 l.imaskBit ||| bitAt true l.kuBit ||| bitAt true l.okuBit ||| bitAt true l.ieBit |||
    bitAt true l.oieBit

end Sys2Proof.Machine
end

