-- ==== Sys2Proof/Machine/PowerOn.lean ====
section
/-! DEFINITION. The configuration `State.reset` runs on: the values spec/92_eei_decisions.md decides or
gives as defaults, and the values this model names where the spec is OPEN (log entries 1 to 6, 28). -/

namespace Sys2Proof

/-- DESIGN CHOICE, unsafe (log entries 1, 3): all ones in every register R50 leaves unspecified
("never 0"), no interrupt line raised. -/
def PowerOn.named : PowerOn where
  general := Vector.replicate 15 0xFFFFFFFF#32
  oku := true
  oie := true
  imask := 0xFF#8
  estat := 0xFFFFFFFF#32
  evec := 0xFFFFFFFF#32
  ear := 0xFFFFFFFF#32
  esp := 0xFFFFFFFF#32
  ers := 0xFFFFFFFF#32
  ptable := 0xFFFFFFFF#32
  rbase := 0xFFFFFFFF#32
  irq := 0x00#8

/-- The default profile of the special registers (10_state.md R41, R42; PRESUMED there, log entry 12):
numbers 4 to 13, and 0 to 3, 14, 15 name nothing. -/
def SprLayout.profile : SprLayout where
  slots := #v[none, none, none, none, some .cctrl, some .estat, some .icount, some .ccount,
    some .evec, some .ear, some .esp, some .ers, some .ptable, some .rbase, none, none]
  readOnly := [.estat, .icount, .ccount]
  oieBit := 0
  ieBit := 1
  okuBit := 2
  kuBit := 3
  imaskBit := 4

/-- The entry sequence of 60_exceptions.md R270 (decision D19). -/
def EntryStep.sequence : List EntryStep :=
  [.saveIe, .saveKu, .clearIe, .enterKernel, .saveReturn, .saveCause, .toHandler]

/-- The cause words of 60_exceptions.md R273 (decisions D12, D22). -/
def CauseEncoding.words : CauseEncoding where
  overflow := 0x00008000#32
  divideByZero := 0x00008000#32
  breakpoint := 0x00004000#32
  systemCall := 0x00002000#32
  generalProtection := 0x00001000#32
  irqBit := 4

/-- The parameters of `State.reset`.  Each that the spec decides or gives a default has that value
(spec/92_eei_decisions.md, "The parameters in one list"); the OPEN ones are this model's, DESIGN
CHOICE: `RESET_PC` 0x00000 (log entry 2), every address `ram` (log entry 4), an image given as words
and a run that ends at a jump to itself (log entry 28). -/
def Platform.named : Platform where
  resetPc := 0x00000#20
  memMap := { regions := [], elsewhere := .ram }
  eaHighBits := .ignore
  pcWrap := .wrap
  divRound := .towardZero
  divMinNeg1 := .wrap
  reserved := .refuse
  spr := SprLayout.profile
  kuKernel := true
  excEntry := EntryStep.sequence
  earValue := .next
  excHandler := .evec
  causes := CauseEncoding.words
  irqModel := .lines8
  userMode := .refuse
  imageByteOrder := .words
  endOfRun := .selfJump
  branchBase := .next
  excRd := .unchanged
  mbz := .strict
  lhiRsIgnored := false
  resetKu := true
  resetIe := false
  fetchCoherence := .coherent

end Sys2Proof
end

