-- ==== Sys2Proof/Machine/State.lean ====
section
/-! DEFINITION. The state of the machine (spec/10_state.md R30), the reasons it can stop, and the state
after reset (R50). -/

namespace Sys2Proof.Machine

/-- The five synchronous causes of exception entry (60_exceptions.md R261, R292). -/
inductive Cause where
  | overflow
  | divideByZero
  | breakpoint
  | systemCall
  /-- Raised only under `USER_MODE_POLICY = gpf` or `RESERVED_POLICY = gpf` (R292). -/
  | generalProtection
deriving DecidableEq, Repr

/-- One access to a device word, as the environment sees it (20_memory.md R67). -/
inductive DeviceAccess where
  /-- The machine read the word at `a` and was answered `v`. -/
  | read (a : Addr) (v : Word)
  /-- The machine wrote `v` to the word at `a`. -/
  | write (a : Addr) (v : Word)
deriving DecidableEq, Repr

/-- Where the machine is stuck: an access to which the spec gives no behaviour.  All are SAFE: the
model stops where hardware would go on. -/
inductive Fault where
  /-- A fetch, `lw` or `sw` at an address the memory map declares absent (R77).  Safe. -/
  | absentAddress (a : Addr)
  /-- `sw` to an address the memory map declares rom (R77).  Safe. -/
  | romStore (a : Addr)
  /-- A fetch from a device word (R69).  Safe. -/
  | deviceFetch (a : Addr)
  /-- A fetch from a word that nothing has stored to and no image gives (R62, U4).  Safe. -/
  | unwrittenFetch (a : Addr)
  /-- A fetch from a word stored to since reset, under `IFETCH_COHERENT = refuse_modified` (R75).
  Safe. -/
  | modifiedFetch (a : Addr)
  /-- `lw` or `sw` with an effective address whose bits 31:20 are not 0, under
  `EA_HIGH_BITS = refuse` (R68).  Safe. -/
  | highAddress (ea : Word)
deriving DecidableEq, Repr

/-- What the model gives no meaning to, each because the spec gives it none.  All are SAFE. -/
inductive Refusal where
  /-- An arm of `exec` that has no meaning yet; no arm is left so.  Safe. -/
  | notModelled (mnemonic : String)
  /-- The step fetched a reserved word under `RESERVED_POLICY = refuse` (R112).  Safe. -/
  | reservedWord (e : DecodeError)
  /-- `movgs` or `movsg` names a special register that does not exist (R41, R246, R247).  Safe. -/
  | noSuchSpecial (n : Reg)
  /-- `movgs` names `$estat`, `$icount` or `$ccount` (R41, R246).  Safe. -/
  | specialNotWritable (n : Reg)
  /-- The step began in user mode under `USER_MODE_POLICY = refuse` (R291).  Safe. -/
  | userModeStep
  /-- The instruction at `pc` steps or branches past `0xFFFFF` under `PC_WRAP = refuse` (D5), or raises an
  exception there under `EAR_VALUE = next` (log entry 18).  Safe. -/
  | pastLastAddress (pc : Addr)
  /-- `0x80000000` divided by -1, signed, under `DIV_MIN_NEG1 = refuse` (D11).  Safe. -/
  | divideMinByMinusOne
  /-- Exception entry, synchronous or by an interrupt, where the handler is at `evec[19:0]` and `$evec`
  has not been written since reset (60_exceptions.md R274, U3).  Safe. -/
  | handlerUnset
deriving DecidableEq, Repr

/-- The state: R30's rows, then the model's own fields. -/
structure State where
  /-- The general registers `$0` to `$ra` (R31); entry 0 is never read (R32). -/
  regs : Vector Word 16
  /-- The address of the instruction to execute (R37). -/
  pc : Addr
  /-- `IE`, the interrupt enable bit (R40). -/
  ie : Bool
  /-- `KU`, the kernel/user bit (R40); `KU_KERNEL_VALUE` says which value is kernel mode. -/
  ku : Bool
  /-- `OIE`, the saved `IE` (R40). -/
  oie : Bool
  /-- `OKU`, the saved `KU` (R40). -/
  oku : Bool
  /-- `IMASK`, the interrupt mask (R42). -/
  imask : BitVec 8
  /-- `$estat` (R43). -/
  estat : Word
  /-- `$evec` (R44). -/
  evec : Word
  /-- `$ear` (R39). -/
  ear : Word
  /-- `$esp` (R45). -/
  esp : Word
  /-- `$ers` (R45). -/
  ers : Word
  /-- `$ptable` (R45). -/
  ptable : Word
  /-- `$rbase` (R45). -/
  rbase : Word
  /-- Memory (R48). -/
  mem : Memory
  /-- The interrupt request lines, driven by the environment (R49). -/
  irq : BitVec 8
  /-- MODEL'S OWN: the line values the environment will drive, one a step (R280, log entry 11). -/
  lineFeed : List (BitVec 8)
  /-- MODEL'S OWN: how many free values the run has used (log entry 9). -/
  draws : Nat
  /-- MODEL'S OWN: the accesses to device words, newest first (R67, log entry 10). -/
  deviceLog : List DeviceAccess
  /-- MODEL'S OWN: the words `sw` has stored to since reset (R75, D26; log entry 21). -/
  stored : List Addr
  /-- MODEL'S OWN: `movgs` has written `$evec` since reset (60_exceptions.md R274; log entry 33). -/
  evecWritten : Bool
  /-- MODEL'S OWN: the configuration record of 00_scope.md R7; no step changes it (log entry 4). -/
  platform : Platform
deriving DecidableEq, Repr

/-- The state after reset (R50, R311) of a platform whose unspecified registers hold `u`: `KU`, `IE` and
`pc` as `RESET_KU`, `RESET_IE` and `RESET_PC` say, nothing stored in memory. -/
def State.powerOn (p : Platform) (u : PowerOn) : State where
  regs := Vector.ofFn fun i =>
    if h : i.val = 0 then 0#32 else u.general[i.val - 1]'(by omega)
  pc := p.resetPc
  ie := p.resetIe
  ku := p.resetKu
  oie := u.oie
  oku := u.oku
  imask := u.imask
  estat := u.estat
  evec := u.evec
  ear := u.ear
  esp := u.esp
  ers := u.ers
  ptable := u.ptable
  rbase := u.rbase
  mem := []
  irq := u.irq
  lineFeed := []
  draws := 0
  deviceLog := []
  stored := []
  evecWritten := false
  platform := p

/-- The machine right after reset, on the platform and the power-on values the model names (log
entries 1 to 6, 28). -/
def State.reset : State := State.powerOn Platform.named PowerOn.named

/-- The two ways an access ends: with its result, or stuck. -/
abbrev Access (α : Type) := Except Fault α

/-- What a meaning answers. -/
abbrev Result := Host.Outcome State Fault Refusal

end Sys2Proof.Machine
end

