-- ==== Sys2Proof/Machine/Ops.lean ====
section
/-! DEFINITION. The shared operations every meaning is made of: the registers, the special registers,
memory through the memory map, taking an exception and returning from one. -/

namespace Sys2Proof.Machine

/-- `x[i]` (R10): register 0 reads as zero (R32). -/
def State.reg (s : State) (r : Reg) : Word := if r = 0#4 then 0#32 else s.regs.get r.toFin

/-- The register file after `x[i] <- v` (R10): a write to register 0 is discarded (R32). -/
def writeFile (regs : Vector Word 16) (r : Reg) (v : Word) : Vector Word 16 :=
  if r = 0#4 then regs else regs.set r.toNat v r.isLt

/-- `x[i] <- v` (R10). -/
def State.setReg (r : Reg) (v : Word) (s : State) : State := { s with regs := writeFile s.regs r v }

/-- `pc <- t` (R10). -/
def State.setPc (t : Addr) (s : State) : State := { s with pc := t }

/-- `npc` (R10, R37): the address of the next instruction, modulo 2^20 (decision D5). -/
def State.npc (s : State) : Addr := s.pc + 1#20

/-- `pc <- npc` (R10). -/
def State.advance (s : State) : State := s.setPc s.npc

/-- `x[rd] <- v; pc <- npc`: how most instructions end. -/
def State.retire (rd : Reg) (v : Word) (s : State) : State := (s.setReg rd v).advance

/-- `PC_WRAP` (R37, decision D5): the address at `pc` has a successor. -/
def State.hasSuccessor (s : State) : Bool := s.platform.pcWrap == .wrap || s.pc != 0xFFFFF#20

/-- An effect that needs the address of the next instruction: under `PC_WRAP = refuse` it has no
behaviour at `0xFFFFF` (D5; log entry 18). -/
def State.inSequence (s : State) (effect : Result) : Result :=
  if s.hasSuccessor then effect else .refused (.pastLastAddress s.pc)

/-- `x[rd] <- v; pc <- npc`, where there is a next address. -/
def State.finish (rd : Reg) (v : Word) (s : State) : Result := s.inSequence (.next (s.retire rd v))

/-- R273: the cause word of a synchronous exception. -/
def causeWord (enc : CauseEncoding) : Cause → Word
  | .overflow => enc.overflow
  | .divideByZero => enc.divideByZero
  | .breakpoint => enc.breakpoint
  | .systemCall => enc.systemCall
  | .generalProtection => enc.generalProtection

/-- R273: the cause word of an interrupt entry for the pending unmasked lines `p`. -/
def interruptWord (enc : CauseEncoding) (p : BitVec 8) : Word := byteAt p enc.irqBit

/-- R274: the address of the exception handler (decision D21); `State.hasTarget` says when there is
one. -/
def State.handler (s : State) : Addr :=
  match s.platform.excHandler with
  | .evec => addrOfWord s.evec
  | .fixed a => a

/-- R270: one assignment of exception entry, made in `t`; its right-hand side is read in `s`, the
state before the entry. -/
def State.entryStep (s : State) (cause : Word) (ret : Addr) (t : State) : EntryStep → State
  | .saveIe => { t with oie := s.ie }
  | .saveKu => { t with oku := s.ku }
  | .clearIe => { t with ie := false }
  | .enterKernel => { t with ku := s.platform.kuKernel }
  | .saveReturn => { t with ear := wordOfAddr ret }
  | .saveCause => { t with estat := cause }
  | .toHandler => { t with pc := s.handler }

/-- R270: TAKING AN EXCEPTION, `enter(cause_word, return_address)`: the assignments of `EXC_ENTRY`, one
indivisible action (decision D19; log entry 13). -/
def State.enter (cause : Word) (ret : Addr) (s : State) : State :=
  s.platform.excEntry.foldl (s.entryStep cause ret) s

/-- R272: the address a synchronous exception saves (decision D20). -/
def State.returnAddress (s : State) : Addr :=
  match s.platform.earValue with
  | .next => s.npc
  | .faulting => s.pc

/-- R10, R272: entry for the cause `c` of the instruction at `pc`, which writes nothing. -/
def State.raise (c : Cause) (s : State) : State :=
  s.enter (causeWord s.platform.causes c) s.returnAddress

/-- R274: entry has a target.  It has none where it goes to `evec[19:0]` and `$evec` has not been written
since reset. -/
def State.hasTarget (s : State) : Bool :=
  s.evecWritten || s.platform.excHandler != .evec || !s.platform.excEntry.contains .toHandler

/-- R274, U3: exception entry, which takes the machine from `s` to `t`, is refused where it has no
target (log entry 33). -/
def State.entering (s t : State) : Result :=
  if s.hasTarget then .next t else .refused .handlerUnset

/-- `raise E` (R10): the entry.  Under `EAR_VALUE = next` the return address is `npc`, which must exist
(D5).  DESIGN CHOICE: under `PC_WRAP = refuse` this is asked at `0xFFFFF` whatever `EXC_ENTRY` is, also
where a replacement leaves out `saveReturn` and `npc` is saved nowhere; the spec leaves that open (log
entry 18).  Safe. -/
def State.trap (c : Cause) (s : State) : Result :=
  match s.platform.earValue with
  | .next => s.inSequence (s.entering (s.raise c))
  | .faulting => s.entering (s.raise c)

/-- R250, R275: RETURNING FROM AN EXCEPTION; the saved bits are copied, not popped. -/
def State.returnFrom (s : State) : State :=
  { s with
    ie := s.oie
    ku := s.oku
    pc := addrOfWord s.ear }

/-- The next free value of the run (log entry 9). -/
def State.draw (s : State) : Word := Config.draw s.draws

/-- The free value has been used. -/
def State.drawn (s : State) : State := { s with draws := s.draws + 1 }

/-- `EXC_RD` (R130, decision D9): what an arithmetic exception leaves in `rd`. -/
def State.spoil (rd : Reg) (s : State) : State :=
  match s.platform.excRd with
  | .unchanged => s
  | .any => (s.setReg rd s.draw).drawn

/-- `raise Overflow`, `raise DivideByZero` (R262, R263) by an instruction with destination `rd`. -/
def State.arithTrap (rd : Reg) (c : Cause) (s : State) : Result := (s.spoil rd).trap c

/-- R67: hand an access to a device word to the environment. -/
def State.logDevice (e : DeviceAccess) (s : State) : State := { s with deviceLog := e :: s.deviceLog }

/-- Replace memory. -/
def State.setMem (m : Memory) (s : State) : State := { s with mem := m }

/-- R75: `sw` has stored to the word at `a`. -/
def State.noteStore (a : Addr) (s : State) : State :=
  { s with stored := if a ∈ s.stored then s.stored else a :: s.stored }

/-- R42: `$cctrl` as `movsg` reads it: the four mode bits and `IMASK` in their places, the other bits
from `d`. -/
def State.cctrlWord (d : Word) (s : State) : Word :=
  (d &&& ~~~cctrlFields s.platform.spr) ||| byteAt s.imask s.platform.spr.imaskBit |||
    bitAt s.ku s.platform.spr.kuBit ||| bitAt s.oku s.platform.spr.okuBit |||
    bitAt s.ie s.platform.spr.ieBit ||| bitAt s.oie s.platform.spr.oieBit

/-- R42: a write to `$cctrl` replaces the four mode bits and `IMASK` at once; its other bits are
ignored. -/
def State.setCctrl (v : Word) (s : State) : State :=
  { s with
    imask := v.extractLsb' s.platform.spr.imaskBit 8
    ku := v.getLsbD s.platform.spr.kuBit
    oku := v.getLsbD s.platform.spr.okuBit
    ie := v.getLsbD s.platform.spr.ieBit
    oie := v.getLsbD s.platform.spr.oieBit }

/-- R41, R247: the value of a special register. -/
def State.special (k : Special) (s : State) : Word :=
  match k with
  | .cctrl => s.cctrlWord s.draw
  | .estat => s.estat
  | .icount => s.draw
  | .ccount => s.draw
  | .evec => s.evec
  | .ear => s.ear
  | .esp => s.esp
  | .ers => s.ers
  | .ptable => s.ptable
  | .rbase => s.rbase

/-- Reading a special register uses a free value when its value holds one (R41, R42). -/
def State.afterRead (k : Special) (s : State) : State :=
  match k with
  | .cctrl | .icount | .ccount => s.drawn
  | .estat | .evec | .ear | .esp | .ers | .ptable | .rbase => s

/-- R41, R246: `s[rd] <- v` for a register `movgs` may write; a counter holds no value (R45). -/
def State.setSpecial (k : Special) (v : Word) (s : State) : State :=
  match k with
  | .cctrl => s.setCctrl v
  | .estat => { s with estat := v }
  | .evec => { s with evec := v, evecWritten := true }
  | .ear => { s with ear := v }
  | .esp => { s with esp := v }
  | .ers => { s with ers := v }
  | .ptable => { s with ptable := v }
  | .rbase => { s with rbase := v }
  | .icount | .ccount => s

/-- R62, R67: `MemRead(a, 32)`, and the state after it: a device word answers with a free value and
the access is handed to the environment. -/
def State.memRead (a : Addr) (s : State) : Access (Word × State) :=
  match s.platform.memMap.kindAt a with
  | .ram => .ok (s.mem.word a, s)
  | .rom => .ok (s.mem.word a, s)
  | .device => .ok (s.draw, (s.logDevice (.read a s.draw)).drawn)
  | .absent => .error (.absentAddress a)

/-- R63, R67, R77: `MemWrite(a, 32, v)`. -/
def State.memWrite (a : Addr) (v : Word) (s : State) : Access State :=
  match s.platform.memMap.kindAt a with
  | .ram => .ok ((s.setMem (s.mem.writeWord a v)).noteStore a)
  | .rom => .error (.romStore a)
  | .device => .ok (s.logDevice (.write a v))
  | .absent => .error (.absentAddress a)

/-- `EA_HIGH_BITS` (R68, decision D4): an access at the effective address `ea`, which under `refuse`
has no behaviour where bits 31:20 are not 0. -/
def State.accessing (ea : Word) (s : State) (access : Result) : Result :=
  if s.platform.eaHighBits == .refuse && beyondSpace ea then .fault (.highAddress ea) else access

/-- `IFETCH_COHERENT` (R75, decision D26): the word at `pc` may be fetched. -/
def State.fetchable (s : State) : Bool :=
  s.platform.fetchCoherence == .coherent || !s.stored.contains s.pc

/-- R69: the word at `pc`. -/
def State.fetch (s : State) : Access Word :=
  match s.platform.memMap.kindAt s.pc with
  | .ram | .rom =>
    match s.mem.word? s.pc with
    | some w => if s.fetchable then .ok w else .error (.modifiedFetch s.pc)
    | none => .error (.unwrittenFetch s.pc)
  | .device => .error (.deviceFetch s.pc)
  | .absent => .error (.absentAddress s.pc)

/-- R93: the instruction the word is under the policies of the platform (R108, R109). -/
def State.decode (w : Word) (s : State) : Except DecodeError Instr :=
  decodeUnder s.platform.mbz s.platform.lhiRsIgnored w

/-- R290: the machine is in user mode (decision D18). -/
def State.inUserMode (s : State) : Bool := s.ku != s.platform.kuKernel

/-- R291: under `gpf`, user mode may not execute `movgs`, `movsg` or `rfe`. -/
def State.privilegeFault (s : State) : Bool := s.inUserMode && s.platform.userMode == .gpf

/-- R291: under `refuse`, a step of an instruction that starts in user mode has no behaviour. -/
def State.refusesStep (s : State) : Bool := s.inUserMode && s.platform.userMode == .refuse

/-- R280: the lines at the start of a step: the environment's next value, or as they were; all 0 under
`IRQ_MODEL = none` (decision D23). -/
def State.drivenLines (s : State) : BitVec 8 :=
  match s.platform.irqModel with
  | .lines8 => s.lineFeed.headD s.irq
  | .none => 0#8

/-- R280: the lines are sampled, and the environment's value is used up. -/
def State.sampleLines (s : State) : State :=
  { s with
    irq := s.drivenLines
    lineFeed := s.lineFeed.tail }

/-- R281: the lines that are pending and unmasked. -/
def State.pending (s : State) : BitVec 8 := s.irq &&& s.imask

/-- R281: an interrupt is taken before the fetch. -/
def State.takesInterrupt (s : State) : Bool := s.ie && s.pending != 0#8

/-- R281: interrupt entry; `$ear` gets the address of the instruction not executed. -/
def State.interrupt (s : State) : State :=
  s.enter (interruptWord s.platform.causes s.pending) s.pc

/-- R281, R274: an interrupt is taken, where entry has a target. -/
def State.takeInterrupt (s : State) : Result := s.entering s.interrupt

/-- R112: executing a reserved word. -/
def State.reservedWord (e : DecodeError) (s : State) : Result :=
  match s.platform.reserved with
  | .refuse => .refused (.reservedWord e)
  | .gpf => s.trap .generalProtection

/-- One word of a program, or of what an initial image gives, placed at `a` from outside: it is no store
of `sw`.  DESIGN CHOICE (log entry 26): the memory map is not asked, so a word placed where the map
has a device or nothing lies in storage that no access reaches. -/
def State.placeWord (a : Addr) (v : Word) (s : State) : State :=
  { s with
    mem := s.mem.writeWord a v
    stored := s.stored.erase a }

end Sys2Proof.Machine
end

