-- ==== Sys2Proof/Machine/Arithmetic.lean ====
section
/-! DEFINITION. The arithmetic instructions (spec/40_arithmetic.md). -/

namespace Sys2Proof.Machine

/-- R130, R153: an operation that raises Overflow exactly when its exact result leaves the signed
range, and otherwise writes the result. -/
def State.signedArith (rd : Reg) (r : Int) (s : State) : Result :=
  if signedOverflow r then s.arithTrap rd .overflow else s.finish rd (to32 r)

/-- R130, R153: the same with the unsigned range. -/
def State.unsignedArith (rd : Reg) (r : Int) (s : State) : Result :=
  if unsignedOverflow r then s.arithTrap rd .overflow else s.finish rd (to32 r)

/-- R130, R154: an operation that raises DivideByZero exactly when the divisor `b` is zero, and
otherwise writes `v`. -/
def State.divide (rd : Reg) (b v : Word) (s : State) : Result :=
  if zeroDivisor b then s.arithTrap rd .divideByZero else s.finish rd v

/-- R154, decision D11: a signed division of `a` by `b`; under `DIV_MIN_NEG1 = refuse` that of
`0x80000000` by -1 has no behaviour. -/
def State.signedDivide (rd : Reg) (a b v : Word) (s : State) : Result :=
  if s.platform.divMinNeg1 == .refuse && minByMinusOne a b then .refused .divideMinByMinusOne
  else s.divide rd b v

/-- R131 `add Rd, Rs, Rt`: the signed sum. -/
def execAdd (rd rs rt : Reg) (s : State) : Result :=
  s.signedArith rd ((s.reg rs).toInt + (s.reg rt).toInt)

/-- R132 `addi Rd, Rs, Immediate`: the signed sum with the sign-extended immediate. -/
def execAddi (rd rs : Reg) (imm : Imm) (s : State) : Result :=
  s.signedArith rd ((s.reg rs).toInt + (sext imm).toInt)

/-- R133 `addu Rd, Rs, Rt`: the unsigned sum. -/
def execAddu (rd rs rt : Reg) (s : State) : Result :=
  s.unsignedArith rd (((s.reg rs).toNat : Int) + (s.reg rt).toNat)

/-- R134 `addui Rd, Rs, Immediate`: the unsigned sum with the zero-extended immediate. -/
def execAddui (rd rs : Reg) (imm : Imm) (s : State) : Result :=
  s.unsignedArith rd (((s.reg rs).toNat : Int) + (zext imm).toNat)

/-- R135 `sub Rd, Rs, Rt`: the signed difference. -/
def execSub (rd rs rt : Reg) (s : State) : Result :=
  s.signedArith rd ((s.reg rs).toInt - (s.reg rt).toInt)

/-- R136 `subi Rd, Rs, Immediate`: the signed difference with the sign-extended immediate. -/
def execSubi (rd rs : Reg) (imm : Imm) (s : State) : Result :=
  s.signedArith rd ((s.reg rs).toInt - (sext imm).toInt)

/-- R137 `subu Rd, Rs, Rt`: the unsigned difference. -/
def execSubu (rd rs rt : Reg) (s : State) : Result :=
  s.unsignedArith rd (((s.reg rs).toNat : Int) - (s.reg rt).toNat)

/-- R138 `subui Rd, Rs, Immediate`: the unsigned difference with the zero-extended immediate. -/
def execSubui (rd rs : Reg) (imm : Imm) (s : State) : Result :=
  s.unsignedArith rd (((s.reg rs).toNat : Int) - (zext imm).toNat)

/-- R139 `mult Rd, Rs, Rt`: the signed product. -/
def execMult (rd rs rt : Reg) (s : State) : Result :=
  s.signedArith rd ((s.reg rs).toInt * (s.reg rt).toInt)

/-- R140 `multi Rd, Rs, Immediate`: the signed product with the sign-extended immediate. -/
def execMulti (rd rs : Reg) (imm : Imm) (s : State) : Result :=
  s.signedArith rd ((s.reg rs).toInt * (sext imm).toInt)

/-- R141 `multu Rd, Rs, Rt`: the unsigned product. -/
def execMultu (rd rs rt : Reg) (s : State) : Result :=
  s.unsignedArith rd (((s.reg rs).toNat : Int) * (s.reg rt).toNat)

/-- R142 `multui Rd, Rs, Immediate`: the unsigned product with the zero-extended immediate. -/
def execMultui (rd rs : Reg) (imm : Imm) (s : State) : Result :=
  s.unsignedArith rd (((s.reg rs).toNat : Int) * (zext imm).toNat)

/-- R143 `div Rd, Rs, Rt`: the signed quotient. -/
def execDiv (rd rs rt : Reg) (s : State) : Result :=
  s.signedDivide rd (s.reg rs) (s.reg rt) (signedQuotient s.platform.divRound (s.reg rs) (s.reg rt))

/-- R144 `divi Rd, Rs, Immediate`: the signed quotient by the sign-extended immediate. -/
def execDivi (rd rs : Reg) (imm : Imm) (s : State) : Result :=
  s.signedDivide rd (s.reg rs) (sext imm) (signedQuotient s.platform.divRound (s.reg rs) (sext imm))

/-- R145 `divu Rd, Rs, Rt`: the unsigned quotient. -/
def execDivu (rd rs rt : Reg) (s : State) : Result :=
  s.divide rd (s.reg rt) (unsignedQuotient (s.reg rs) (s.reg rt))

/-- R146 `divui Rd, Rs, Immediate`: the unsigned quotient by the zero-extended immediate. -/
def execDivui (rd rs : Reg) (imm : Imm) (s : State) : Result :=
  s.divide rd (zext imm) (unsignedQuotient (s.reg rs) (zext imm))

/-- R147 `rem Rd, Rs, Rt`: the signed remainder. -/
def execRem (rd rs rt : Reg) (s : State) : Result :=
  s.signedDivide rd (s.reg rs) (s.reg rt) (signedRemainder s.platform.divRound (s.reg rs) (s.reg rt))

/-- R148 `remi Rd, Rs, Immediate`: the signed remainder by the sign-extended immediate. -/
def execRemi (rd rs : Reg) (imm : Imm) (s : State) : Result :=
  s.signedDivide rd (s.reg rs) (sext imm) (signedRemainder s.platform.divRound (s.reg rs) (sext imm))

/-- R149 `remu Rd, Rs, Rt`: the unsigned remainder. -/
def execRemu (rd rs rt : Reg) (s : State) : Result :=
  s.divide rd (s.reg rt) (unsignedRemainder (s.reg rs) (s.reg rt))

/-- R150 `remui Rd, Rs, Immediate`: the unsigned remainder by the zero-extended immediate. -/
def execRemui (rd rs : Reg) (imm : Imm) (s : State) : Result :=
  s.divide rd (zext imm) (unsignedRemainder (s.reg rs) (zext imm))

/-- R151 `lhi Rd, Immediate`: the immediate in the upper half. -/
def execLhi (rd : Reg) (imm : Imm) (s : State) : Result :=
  s.finish rd (high imm)

/-- R152 `la Rd, Address`: the zero-extended 20-bit address. -/
def execLa (rd : Reg) (addr : Addr) (s : State) : Result :=
  s.finish rd (wordOfAddr addr)

end Sys2Proof.Machine
end

