-- ==== Sys2Proof/Machine/Bitwise.lean ====
section
/-! DEFINITION. The bitwise and shift instructions (spec/41_bitwise.md). -/

namespace Sys2Proof.Machine

/-- R171 `and Rd, Rs, Rt`: bit by bit and. -/
def execAnd (rd rs rt : Reg) (s : State) : Result :=
  s.finish rd (s.reg rs &&& s.reg rt)

/-- R172 `andi Rd, Rs, Immediate`: bit by bit and with the zero-extended immediate. -/
def execAndi (rd rs : Reg) (imm : Imm) (s : State) : Result :=
  s.finish rd (s.reg rs &&& zext imm)

/-- R173 `or Rd, Rs, Rt`: bit by bit or. -/
def execOr (rd rs rt : Reg) (s : State) : Result :=
  s.finish rd (s.reg rs ||| s.reg rt)

/-- R174 `ori Rd, Rs, Immediate`: bit by bit or with the zero-extended immediate. -/
def execOri (rd rs : Reg) (imm : Imm) (s : State) : Result :=
  s.finish rd (s.reg rs ||| zext imm)

/-- R175 `xor Rd, Rs, Rt`: bit by bit exclusive or. -/
def execXor (rd rs rt : Reg) (s : State) : Result :=
  s.finish rd (s.reg rs ^^^ s.reg rt)

/-- R176 `xori Rd, Rs, Immediate`: bit by bit exclusive or with the zero-extended immediate. -/
def execXori (rd rs : Reg) (imm : Imm) (s : State) : Result :=
  s.finish rd (s.reg rs ^^^ zext imm)

/-- R177 `sll Rd, Rs, Rt`: shift left, zeros in; amount `x[rt][4:0]`. -/
def execSll (rd rs rt : Reg) (s : State) : Result :=
  s.finish rd (shiftLeft (s.reg rs) (shiftOfWord (s.reg rt)))

/-- R178 `slli Rd, Rs, Immediate`: shift left, zeros in; amount `imm16[4:0]`. -/
def execSlli (rd rs : Reg) (imm : Imm) (s : State) : Result :=
  s.finish rd (shiftLeft (s.reg rs) (shiftOfImm imm))

/-- R179 `srl Rd, Rs, Rt`: shift right, zeros in; amount `x[rt][4:0]`. -/
def execSrl (rd rs rt : Reg) (s : State) : Result :=
  s.finish rd (shiftRight (s.reg rs) (shiftOfWord (s.reg rt)))

/-- R180 `srli Rd, Rs, Immediate`: shift right, zeros in; amount `imm16[4:0]`. -/
def execSrli (rd rs : Reg) (imm : Imm) (s : State) : Result :=
  s.finish rd (shiftRight (s.reg rs) (shiftOfImm imm))

/-- R181 `sra Rd, Rs, Rt`: shift right, copies of bit 31 in; amount `x[rt][4:0]`. -/
def execSra (rd rs rt : Reg) (s : State) : Result :=
  s.finish rd (shiftRightArith (s.reg rs) (shiftOfWord (s.reg rt)))

/-- R182 `srai Rd, Rs, Immediate`: shift right, copies of bit 31 in; amount `imm16[4:0]`. -/
def execSrai (rd rs : Reg) (imm : Imm) (s : State) : Result :=
  s.finish rd (shiftRightArith (s.reg rs) (shiftOfImm imm))

end Sys2Proof.Machine
end

