-- ==== Sys2Proof/Machine/Branch.lean ====
section
/-! DEFINITION. The jumps and branches (spec/43_branch.md); no delay slot (R227). -/

namespace Sys2Proof.Machine

/-- R223, R224: `x[15] <- zext_32(npc)`, then the jump to a target read before the link is written. -/
def State.link (target : Addr) (s : State) : State := (s.setReg 15#4 (wordOfAddr s.npc)).setPc target

/-- R225, R226: a taken branch.  Under `PC_WRAP = refuse` a sum outside the address space has no
behaviour (D5; log entry 18). -/
def State.branchTo (off : Addr) (s : State) : Result :=
  if s.platform.pcWrap == .refuse &&
      (branchSum s.platform.branchBase s.pc off < 0 ||
        1048575 < branchSum s.platform.branchBase s.pc off) then
    .refused (.pastLastAddress s.pc)
  else .next (s.setPc (branchTarget s.platform.branchBase s.pc off))

/-- R225, R226: to the target when taken, to `npc` when not. -/
def State.branch (taken : Bool) (off : Addr) (s : State) : Result :=
  if taken then s.branchTo off else s.inSequence (.next s.advance)

/-- R221 `j Address`: `pc <- addr20`. -/
def execJ (addr : Addr) (s : State) : Result :=
  .next (s.setPc addr)

/-- R222 `jr Rs`: `pc <- x[rs][19:0]`. -/
def execJr (rs : Reg) (s : State) : Result :=
  .next (s.setPc (addrOfWord (s.reg rs)))

/-- R223 `jal Address`: `x[15] <- npc`, `pc <- addr20`. -/
def execJal (addr : Addr) (s : State) : Result :=
  s.inSequence (.next (s.link addr))

/-- R224 `jalr Rs`: `x[15] <- npc`, `pc <- x[rs][19:0]`, the old `x[rs]` (decision D8). -/
def execJalr (rs : Reg) (s : State) : Result :=
  s.inSequence (.next (s.link (addrOfWord (s.reg rs))))

/-- R225 `beqz Rs, Offset`: branch when `x[rs]` is zero. -/
def execBeqz (rs : Reg) (off : Addr) (s : State) : Result :=
  s.branch (s.reg rs == 0#32) off

/-- R226 `bnez Rs, Offset`: branch when `x[rs]` is not zero. -/
def execBnez (rs : Reg) (off : Addr) (s : State) : Result :=
  s.branch (s.reg rs != 0#32) off

end Sys2Proof.Machine
end

