-- ==== Sys2Proof/Machine/LoadStore.lean ====
section
/-! DEFINITION. The memory instructions (spec/44_memory_instructions.md). -/

namespace Sys2Proof.Machine

/-- R236: load the word at `a`; an access without behaviour is stuck (R77). -/
def State.loadTo (rd : Reg) (a : Addr) (s : State) : Result :=
  match s.memRead a with
  | .ok (v, t) => .next (t.retire rd v)
  | .error f => .fault f

/-- R237: store `v` at `a`; an access without behaviour is stuck (R77). -/
def State.storeTo (a : Addr) (v : Word) (s : State) : Result :=
  match s.memWrite a v with
  | .ok t => .next t.advance
  | .error f => .fault f

/-- R236 `lw Rd, Offset(Rs)`: `x[rd] <- MemRead(ea[19:0], 32)`. -/
def execLw (rd rs : Reg) (off : Addr) (s : State) : Result :=
  s.accessing (effectiveAddress (s.reg rs) off)
    (s.inSequence (s.loadTo rd (accessAddress (s.reg rs) off)))

/-- R237 `sw Rd, Offset(Rs)`: `MemWrite(ea[19:0], 32, x[rd])`. -/
def execSw (rd rs : Reg) (off : Addr) (s : State) : Result :=
  s.accessing (effectiveAddress (s.reg rs) off)
    (s.inSequence (s.storeTo (accessAddress (s.reg rs) off) (s.reg rd)))

end Sys2Proof.Machine
end

