-- ==== Sys2Proof/Machine/SpecialInstr.lean ====
section
/-! DEFINITION. The special instructions (spec/45_special.md), with the mode each needs (R251, R291). -/

namespace Sys2Proof.Machine

/-- R291, `gpf`: in user mode a privileged instruction takes the general protection exception
instead of its effect. -/
def State.privileged (s : State) (effect : Result) : Result :=
  if s.privilegeFault then s.trap .generalProtection else effect

/-- R246: write the special register numbered `n`, where it exists and is writable. -/
def State.moveToSpecial (n : Reg) (v : Word) (s : State) : Result :=
  match s.platform.spr.named? n with
  | none => .refused (.noSuchSpecial n)
  | some k =>
    if s.platform.spr.writable k then s.inSequence (.next (s.setSpecial k v).advance)
    else .refused (.specialNotWritable n)

/-- R247: read the special register numbered `n`, where it exists. -/
def State.moveFromSpecial (rd n : Reg) (s : State) : Result :=
  match s.platform.spr.named? n with
  | none => .refused (.noSuchSpecial n)
  | some k => s.inSequence (.next ((s.afterRead k).retire rd (s.special k)))

/-- R246 `movgs Rd, Rs`: `s[rd] <- x[rs]`; `rd` names the special register. -/
def execMovgs (rd rs : Reg) (s : State) : Result :=
  s.privileged (s.moveToSpecial rd (s.reg rs))

/-- R247 `movsg Rd, Rs`: `x[rd] <- s[rs]`; `rs` names the special register. -/
def execMovsg (rd rs : Reg) (s : State) : Result :=
  s.privileged (s.moveFromSpecial rd rs)

/-- R248 `break`: `raise Breakpoint`. -/
def execBrk (s : State) : Result :=
  s.trap .breakpoint

/-- R249 `syscall`: `raise SystemCall`. -/
def execSyscall (s : State) : Result :=
  s.trap .systemCall

/-- R250 `rfe`: `IE <- OIE`, `KU <- OKU`, `pc <- ear[19:0]`. -/
def execRfe (s : State) : Result :=
  s.privileged (.next s.returnFrom)

end Sys2Proof.Machine
end

