-- ==== Sys2Proof/Machine/Test.lean ====
section
/-! DEFINITION. The test instructions (spec/42_test.md). -/

namespace Sys2Proof.Machine

/-- R190: write 1 if the relation holds and 0 if not. -/
def State.test (rd : Reg) (holds : Bool) (s : State) : Result := s.finish rd (truth holds)

/-- R191 `slt Rd, Rs, Rt`: less than, as signed numbers. -/
def execSlt (rd rs rt : Reg) (s : State) : Result :=
  s.test rd (decide ((s.reg rs).toInt < (s.reg rt).toInt))

/-- R192 `slti Rd, Rs, Immediate`: less than, the sign-extended immediate, signed. -/
def execSlti (rd rs : Reg) (imm : Imm) (s : State) : Result :=
  s.test rd (decide ((s.reg rs).toInt < (sext imm).toInt))

/-- R193 `sltu Rd, Rs, Rt`: less than, as unsigned numbers. -/
def execSltu (rd rs rt : Reg) (s : State) : Result :=
  s.test rd (decide ((s.reg rs).toNat < (s.reg rt).toNat))

/-- R194 `sltui Rd, Rs, Immediate`: less than, the zero-extended immediate, unsigned. -/
def execSltui (rd rs : Reg) (imm : Imm) (s : State) : Result :=
  s.test rd (decide ((s.reg rs).toNat < (zext imm).toNat))

/-- R195 `sgt Rd, Rs, Rt`: greater than, as signed numbers. -/
def execSgt (rd rs rt : Reg) (s : State) : Result :=
  s.test rd (decide ((s.reg rt).toInt < (s.reg rs).toInt))

/-- R196 `sgti Rd, Rs, Immediate`: greater than, the sign-extended immediate, signed. -/
def execSgti (rd rs : Reg) (imm : Imm) (s : State) : Result :=
  s.test rd (decide ((sext imm).toInt < (s.reg rs).toInt))

/-- R197 `sgtu Rd, Rs, Rt`: greater than, as unsigned numbers. -/
def execSgtu (rd rs rt : Reg) (s : State) : Result :=
  s.test rd (decide ((s.reg rt).toNat < (s.reg rs).toNat))

/-- R198 `sgtui Rd, Rs, Immediate`: greater than, the zero-extended immediate, unsigned. -/
def execSgtui (rd rs : Reg) (imm : Imm) (s : State) : Result :=
  s.test rd (decide ((zext imm).toNat < (s.reg rs).toNat))

/-- R199 `sle Rd, Rs, Rt`: less than or equal to, as signed numbers. -/
def execSle (rd rs rt : Reg) (s : State) : Result :=
  s.test rd (decide ((s.reg rs).toInt ≤ (s.reg rt).toInt))

/-- R200 `slei Rd, Rs, Immediate`: less than or equal to, the sign-extended immediate, signed. -/
def execSlei (rd rs : Reg) (imm : Imm) (s : State) : Result :=
  s.test rd (decide ((s.reg rs).toInt ≤ (sext imm).toInt))

/-- R201 `sleu Rd, Rs, Rt`: less than or equal to, as unsigned numbers. -/
def execSleu (rd rs rt : Reg) (s : State) : Result :=
  s.test rd (decide ((s.reg rs).toNat ≤ (s.reg rt).toNat))

/-- R202 `sleui Rd, Rs, Immediate`: less than or equal to, the zero-extended immediate, unsigned. -/
def execSleui (rd rs : Reg) (imm : Imm) (s : State) : Result :=
  s.test rd (decide ((s.reg rs).toNat ≤ (zext imm).toNat))

/-- R203 `sge Rd, Rs, Rt`: greater than or equal to, as signed numbers. -/
def execSge (rd rs rt : Reg) (s : State) : Result :=
  s.test rd (decide ((s.reg rt).toInt ≤ (s.reg rs).toInt))

/-- R204 `sgei Rd, Rs, Immediate`: greater than or equal to, the sign-extended immediate, signed. -/
def execSgei (rd rs : Reg) (imm : Imm) (s : State) : Result :=
  s.test rd (decide ((sext imm).toInt ≤ (s.reg rs).toInt))

/-- R205 `sgeu Rd, Rs, Rt`: greater than or equal to, as unsigned numbers. -/
def execSgeu (rd rs rt : Reg) (s : State) : Result :=
  s.test rd (decide ((s.reg rt).toNat ≤ (s.reg rs).toNat))

/-- R206 `sgeui Rd, Rs, Immediate`: greater than or equal to, the zero-extended immediate, unsigned. -/
def execSgeui (rd rs : Reg) (imm : Imm) (s : State) : Result :=
  s.test rd (decide ((zext imm).toNat ≤ (s.reg rs).toNat))

/-- R207 `seq Rd, Rs, Rt`: equal to, as signed numbers. -/
def execSeq (rd rs rt : Reg) (s : State) : Result :=
  s.test rd (decide ((s.reg rs).toInt = (s.reg rt).toInt))

/-- R208 `seqi Rd, Rs, Immediate`: equal to, the sign-extended immediate, signed. -/
def execSeqi (rd rs : Reg) (imm : Imm) (s : State) : Result :=
  s.test rd (decide ((s.reg rs).toInt = (sext imm).toInt))

/-- R209 `sequ Rd, Rs, Rt`: equal to, as unsigned numbers. -/
def execSequ (rd rs rt : Reg) (s : State) : Result :=
  s.test rd (decide ((s.reg rs).toNat = (s.reg rt).toNat))

/-- R210 `sequi Rd, Rs, Immediate`: equal to, the zero-extended immediate, unsigned. -/
def execSequi (rd rs : Reg) (imm : Imm) (s : State) : Result :=
  s.test rd (decide ((s.reg rs).toNat = (zext imm).toNat))

/-- R211 `sne Rd, Rs, Rt`: not equal to, as signed numbers. -/
def execSne (rd rs rt : Reg) (s : State) : Result :=
  s.test rd (decide ((s.reg rs).toInt ≠ (s.reg rt).toInt))

/-- R212 `snei Rd, Rs, Immediate`: not equal to, the sign-extended immediate, signed. -/
def execSnei (rd rs : Reg) (imm : Imm) (s : State) : Result :=
  s.test rd (decide ((s.reg rs).toInt ≠ (sext imm).toInt))

/-- R213 `sneu Rd, Rs, Rt`: not equal to, as unsigned numbers. -/
def execSneu (rd rs rt : Reg) (s : State) : Result :=
  s.test rd (decide ((s.reg rs).toNat ≠ (s.reg rt).toNat))

/-- R214 `sneui Rd, Rs, Immediate`: not equal to, the zero-extended immediate, unsigned. -/
def execSneui (rd rs : Reg) (imm : Imm) (s : State) : Result :=
  s.test rd (decide ((s.reg rs).toNat ≠ (zext imm).toNat))

end Sys2Proof.Machine
end

