-- ==== Sys2Proof/Machine/Cycle.lean ====
section
/-! DEFINITION. The execution step of spec/00_scope.md R12, and the loading of an image from outside
(70_reset_and_hazards.md R323; log entries 26 and 28). -/

namespace Sys2Proof.Machine

/-- R12, parts 3 and 5: the word `w` fetched at `pc` is decoded and executed, or the reserved-word rule
applies (R112). -/
def State.execWord (w : Word) (s : State) : Result :=
  match s.decode w with
  | .error e => s.reservedWord e
  | .ok i => exec i s

/-- R12, parts 2 to 5, when no interrupt is taken.  DEDUCED, safe (log entry 24): R69, R291 and D24
refuse the WHOLE step of user mode under `USER_MODE_POLICY = refuse`, where R12 lists the mode check
(4) after the fetch (2) and the reserved-word rule (3); this model refuses before the fetch, so under
`refuse` user mode takes no exception for a reserved word, under `RESERVED_POLICY = gpf` neither. -/
def State.fetchAndExec (s : State) : Result :=
  if s.refusesStep then .refused .userModeStep
  else
    match s.fetch with
    | .error f => .fault f
    | .ok w => s.execWord w

/-- R12: the interrupt check first (R281), then fetch, decode and execute. -/
def State.cycle (s : State) : Result :=
  if s.sampleLines.takesInterrupt then s.sampleLines.takeInterrupt
  else s.sampleLines.fetchAndExec

/-- An initial image given as words, the first at `a` (D28: "image is given as words").  The spec says
nothing of how an image is loaded; DESIGN CHOICE, unsafe (log entry 26): an image that runs past
`0xFFFFF` goes on at `0x00000`, and a word at an address the map declares `device` or `absent` is
placed in storage all the same, where no access reaches it. -/
def State.loadWords (a : Addr) : List Word → State → State
  | [], s => s
  | w :: ws, s => (s.placeWord a w).loadWords (a + 1#20) ws

/-- D28: the words of a stream of bytes in a byte order; an incomplete last word is dropped, and no
stream of bytes is an image given as words (DESIGN CHOICE, log entry 28). -/
def wordsOfBytes (order : ImageByteOrder) : List Byte → List Word
  | b0 :: b1 :: b2 :: b3 :: rest =>
    match order with
    | .big => wordOfBytes b3 b2 b1 b0 :: wordsOfBytes order rest
    | .little => wordOfBytes b0 b1 b2 b3 :: wordsOfBytes order rest
    | .words => []
  | _ => []

/-- An initial image given as bytes, in the order the platform declares (R64, D28). -/
def State.loadBytes (a : Addr) (bytes : List Byte) (s : State) : State :=
  s.loadWords a (wordsOfBytes s.platform.imageByteOrder bytes)

end Sys2Proof.Machine
end

