-- ==== Sys2Proof/Machine/Step.lean ====
section
/-! DEFINITION. The step of the machine, and an instruction placed where it fetches next. -/

namespace Sys2Proof.Machine

/-- One step (spec/00_scope.md R12). -/
def step (s : State) : Host.Outcome State Fault Refusal := s.cycle

/-- The instruction whose bits are `w` stored at `pc`, where `step` fetches (20_memory.md R69). -/
def State.withFetchWord (s : State) (nbits w : Nat) : State :=
  s.placeWord s.pc (BitVec.ofNat 32 (w % 2 ^ nbits))

end Sys2Proof.Machine
end

