-- ==== Sys2Proof/Safety.lean ====
section
/-! DEFINITION. What a run is and when it is over (spec/70_reset_and_hazards.md R323), the invariant of
the machine, and the words the claims use for what a step changes and what it leaves alone. -/

namespace Sys2Proof.Machine

/-! ### Runs -/

/-- R323: the step from `s` executes a `j` or a taken branch, and it goes to its own address.  No
instruction is executed, so none jumps to itself, where an interrupt is taken instead or the step has
no behaviour (`step` then answers no next state: a user-mode step under `refuse`, a fetch that
stops, a reserved word). -/
def State.atSelfJump (s : State) : Bool :=
  !s.sampleLines.takesInterrupt &&
  (match s.fetch with
    | .error _ => false
    | .ok w =>
      match s.decode w with
      | .ok (.j _) => true
      | .ok (.beqz rs _) => s.reg rs == 0#32
      | .ok (.bnez rs _) => s.reg rs != 0#32
      | _ => false) &&
  (match step s with
    | .next t => t.pc == s.pc
    | _ => false)

/-- R323: the run is over in state `s` after `n` steps. -/
def EndReached (e : EndOfRun) (n : Nat) (s : State) : Bool :=
  match e with
  | .stopAddress a => s.pc == a
  | .selfJump => s.atSelfJump
  | .stepCount k => decide (k ≤ n)

/-- `n` steps lead from the first state to the second. -/
inductive Run : Nat → State → State → Prop where
  | done (s : State) : Run 0 s s
  | more (n : Nat) (s t u : State) (first : step s = .next t) (rest : Run n t u) : Run (n + 1) s u

/-- R323: `t` is the result of the run from `s`, the state at the first moment the run is over by the
platform's `END_OF_RUN`. -/
def HasResult (s t : State) : Prop :=
  ∃ n, Run n s t ∧ EndReached s.platform.endOfRun n t = true ∧
    ∀ m u, m < n → Run m s u → EndReached s.platform.endOfRun m u = false

/-- R323: the run from `s` ends with no result: before it is over, a step has no behaviour. -/
def EndsWithoutResult (s : State) : Prop :=
  ∃ n t, Run n s t ∧ (∀ u, step t ≠ .next u) ∧
    ∀ m u, m ≤ n → Run m s u → EndReached s.platform.endOfRun m u = false

/-- A safe run: the machine is never stuck and never refuses before the run is over. -/
def SafeUntil (s : State) : Prop :=
  ∀ n t, Run n s t →
    (∀ m u, m ≤ n → Run m s u → EndReached s.platform.endOfRun m u = false) → ∃ u, step t = .next u

/-! ### The values the spec decides for the parameters, where a claim needs them -/

/-- `PC_WRAP`: the instruction at `pc` has a next address (10_state.md R37, D5): under `wrap` always. -/
def HasSuccessor (s : State) : Prop := s.platform.pcWrap = .wrap ∨ s.pc ≠ 0xFFFFF#20

/-- `EA_HIGH_BITS`: the effective address is one the machine accesses (20_memory.md R68, D4): under
`ignore` every one. -/
def Reachable (base : Word) (off : Addr) (s : State) : Prop :=
  s.platform.eaHighBits = .ignore ∨ (effectiveAddress base off).toNat < 1048576

/-- Exception entry is that of 60_exceptions.md R270 to R274: the decided values of `EXC_ENTRY`,
`EXC_HANDLER`, `CAUSE_ENCODING` and `KU_KERNEL_VALUE` (D18, D19, D21, D22). -/
structure DecidedEntry (s : State) : Prop where
  entry : s.platform.excEntry = EntryStep.sequence
  handler : s.platform.excHandler = .evec
  causes : s.platform.causes = CauseEncoding.words
  kernel : s.platform.kuKernel = true

/-- Exception entry has a target (60_exceptions.md R274): `$evec` has been written since reset, or the
platform does not send the entry there. -/
def HasTarget (s : State) : Prop :=
  s.evecWritten = true ∨ s.platform.excHandler ≠ .evec ∨ EntryStep.toHandler ∉ s.platform.excEntry

/-- A synchronous exception is that of R270 to R274, and `EAR_VALUE` is `next` (R272, D20). -/
structure DecidedTrap (s : State) : Prop extends DecidedEntry s where
  earValue : s.platform.earValue = .next
  successor : HasSuccessor s

/-! ### The invariant -/

/-- The invariant of the machine: memory is in its canonical form (a), holds whole words (b) and only
where the map has storage (c), and the entry of `$0` in the register file holds zero (d). -/
structure Inv (s : State) : Prop where
  canonical : s.mem.wf
  wholeWords : ∀ (a : Addr) (k : Nat), k < 4 →
    (s.mem.read? (cellOf a k)).isSome = (s.mem.read? (cellOf a 0)).isSome
  onlyStorage : ∀ (a : Addr) (k : Nat), k < 4 → (s.mem.read? (cellOf a k)).isSome = true →
    s.platform.memMap.kindAt a = .ram ∨ s.platform.memMap.kindAt a = .rom
  zeroEntry : s.regs.get 0 = 0#32

/-! ### What changes -/

/-- The word `w`, and no other, is the instruction `i` (30_encoding.md R93). -/
def IsWordOf (w : Word) (i : Instr) : Prop := ∀ x : Word, decodeWord x = .ok i ↔ x = w

/-- Every byte of memory reads as before. -/
def SameMemory (s t : State) : Prop := ∀ c : Nat, t.mem.read? c = s.mem.read? c

/-- Every byte of memory outside the four cells of the word at `a` reads as before. -/
def SameMemoryBut (a : Addr) (s t : State) : Prop :=
  ∀ c : Nat, (∀ k < 4, c ≠ cellOf a k) → t.mem.read? c = s.mem.read? c

/-- Every general register reads as before. -/
def SameRegs (s t : State) : Prop := ∀ r : Reg, t.reg r = s.reg r

/-- Every general register but `rd` reads as before. -/
def SameRegsBut (rd : Reg) (s t : State) : Prop := ∀ r : Reg, r ≠ rd → t.reg r = s.reg r

/-- `x[rd] <- v`: `rd` reads as `v`, or as zero when it is `$0`, and no other register changes. -/
def Writes (rd : Reg) (v : Word) (s t : State) : Prop :=
  t.reg rd = (if rd = 0#4 then 0#32 else v) ∧ SameRegsBut rd s t

/-- The special registers no exception entry writes: `IMASK`, `$evec` and whether it has been written,
`$esp`, `$ers`, `$ptable`, `$rbase`. -/
structure SameHandlerRegs (s t : State) : Prop where
  imask : t.imask = s.imask
  evec : t.evec = s.evec
  evecWritten : t.evecWritten = s.evecWritten
  esp : t.esp = s.esp
  ers : t.ers = s.ers
  ptable : t.ptable = s.ptable
  rbase : t.rbase = s.rbase

/-- Every special register and mode bit is as before. -/
structure SameSpecials (s t : State) : Prop extends SameHandlerRegs s t where
  ie : t.ie = s.ie
  ku : t.ku = s.ku
  oie : t.oie = s.oie
  oku : t.oku = s.oku
  estat : t.estat = s.estat
  ear : t.ear = s.ear

/-- The lines, their feed and the platform are as before. -/
structure SameOutside (s t : State) : Prop where
  irq : t.irq = s.irq
  lineFeed : t.lineFeed = s.lineFeed
  platform : t.platform = s.platform

/-- Nothing outside is touched: also no free value is used, no device word accessed and no word stored
to. -/
structure SameEnvironment (s t : State) : Prop extends SameOutside s t where
  draws : t.draws = s.draws
  deviceLog : t.deviceLog = s.deviceLog
  stored : t.stored = s.stored

/-- `exec i` completes at `s`: it writes `v` to `x[rd]`, goes to the next instruction and changes
nothing else. -/
def Completes (i : Instr) (s : State) (rd : Reg) (v : Word) : Prop :=
  ∃ t, exec i s = .next t ∧ Writes rd v s t ∧ t.pc = s.pc + 1#20 ∧
    SameMemory s t ∧ SameSpecials s t ∧ SameEnvironment s t

/-- `exec i` completes at `s`: it goes to `target` and changes nothing else. -/
def Jumps (i : Instr) (s : State) (target : Addr) : Prop :=
  ∃ t, exec i s = .next t ∧ t.pc = target ∧ SameRegs s t ∧
    SameMemory s t ∧ SameSpecials s t ∧ SameEnvironment s t

/-- `exec i` completes at `s`: `$ra` gets the address of the next instruction, `pc` gets `target`, and
nothing else changes. -/
def Links (i : Instr) (s : State) (target : Addr) : Prop :=
  ∃ t, exec i s = .next t ∧ t.pc = target ∧
    t.reg 15#4 = BitVec.ofNat 32 ((s.pc.toNat + 1) % 1048576) ∧ SameRegsBut 15#4 s t ∧
    SameMemory s t ∧ SameSpecials s t ∧ SameEnvironment s t

/-- What exception entry with the cause word and the return address writes (60_exceptions.md R270 to
R274), and the special registers it leaves alone. -/
structure EntryWrites (cause : Word) (ret : Addr) (s t : State) : Prop where
  oie : t.oie = s.ie
  oku : t.oku = s.ku
  ie : t.ie = false
  ku : t.ku = true
  ear : t.ear = BitVec.ofNat 32 ret.toNat
  estat : t.estat = cause
  pc : t.pc = BitVec.ofNat 20 s.evec.toNat
  others : SameHandlerRegs s t
  memory : SameMemory s t
  outside : SameOutside s t

/-- Exception entry took the machine from `s` to `t`, and changed nothing else (R270). -/
structure Entered (cause : Word) (ret : Addr) (s t : State) : Prop extends
    EntryWrites cause ret s t where
  regs : SameRegs s t
  environment : SameEnvironment s t

/-- `exec i` takes the exception with the cause word at `s`, saving the address of the next
instruction; where entry has no target it is refused (60_exceptions.md R274). -/
def Raises (i : Instr) (s : State) (cause : Word) : Prop :=
  (HasTarget s → ∃ t, exec i s = .next t ∧ Entered cause (s.pc + 1#20) s t) ∧
  (¬ HasTarget s → exec i s = .refused .handlerUnset)

/-- `exec i` takes the arithmetic exception with the cause word at `s`: `Rd` is unchanged, or under
`EXC_RD = any` holds the next free value (40_arithmetic.md R130, D9); nothing else changes.  Where entry
has no target it is refused (60_exceptions.md R274). -/
def RaisesArith (i : Instr) (s : State) (rd : Reg) (cause : Word) : Prop :=
  (s.platform.excRd = .unchanged → Raises i s cause) ∧
  (s.platform.excRd = .any →
    (HasTarget s → ∃ t, exec i s = .next t ∧ EntryWrites cause (s.pc + 1#20) s t ∧
      Writes rd (Config.draw s.draws) s t ∧ t.draws = s.draws + 1 ∧ t.deviceLog = s.deviceLog ∧
      t.stored = s.stored) ∧
    (¬ HasTarget s → exec i s = .refused .handlerUnset))

/-- The mode and the policy let `s` execute `movgs`, `movsg` and `rfe` (60_exceptions.md R291). -/
def MayUseSpecials (s : State) : Prop :=
  s.ku = s.platform.kuKernel ∨ s.platform.userMode ≠ .gpf

/-- The mode and the policy let `s` execute an instruction at all (60_exceptions.md R291, D24). -/
def MayStep (s : State) : Prop := s.ku = s.platform.kuKernel ∨ s.platform.userMode ≠ .refuse

/-- The eight lines at the start of the step from `s` (60_exceptions.md R280). -/
def linesAt (s : State) : BitVec 8 :=
  if s.platform.irqModel = .none then 0#8 else s.lineFeed.headD s.irq

/-- No interrupt is taken in the step from `s` (60_exceptions.md R281). -/
def NoInterrupt (s : State) : Prop := s.ie = false ∨ linesAt s &&& s.imask = 0#8

/-- `s` with the lines of this step on them. -/
def withLines (s : State) : State := { s with irq := linesAt s, lineFeed := s.lineFeed.tail }

/-- The word `w` lies at `pc`, in a word of storage a fetch may read (20_memory.md R69, R75). -/
def WordAtPc (w : Word) (s : State) : Prop :=
  (s.platform.memMap.kindAt s.pc = .ram ∨ s.platform.memMap.kindAt s.pc = .rom) ∧
    s.mem.word? s.pc = some w ∧
    (s.platform.fetchCoherence = .coherent ∨ s.pc ∉ s.stored)

/-- Further writes of words, one after the other (20_memory.md R63). -/
def laterWrites : List (Addr × Word) → State → Access State
  | [], s => .ok s
  | (a, v) :: rest, s =>
    match s.memWrite a v with
    | .ok t => laterWrites rest t
    | .error f => .error f

/-- `$estat` holds a cause word some entry writes (R43, R273): one cause bit, or pending lines. -/
def LegalCause (v : Word) : Prop :=
  v = 0x8000#32 ∨ v = 0x4000#32 ∨ v = 0x2000#32 ∨ v = 0x1000#32 ∨
    ∃ p : BitVec 8, p ≠ 0#8 ∧ v = BitVec.ofNat 32 (16 * p.toNat)

end Sys2Proof.Machine
end

