-- ==== Sys2Proof/WellFormed.lean ====
section
/-! DEFINITION. Well-formedness.  The operand types have exactly the widths of the encoding, so every
term fits its word (spec/30_encoding.md R117); what is left to check is that a special register
specifier names something the instruction may use (R41, R246, R247), that a memory map describes
addresses that exist (R61, R70), and that a replaced layout or cause encoding has room for its fields
(R38, R42, R273). -/

namespace Sys2Proof

/-- The instruction names only special registers it may use under the layout: `movgs` a writable one,
`movsg` one that exists. -/
def Instr.wellFormedIn (l : SprLayout) : Instr → Bool
  | .movgs rd _ => l.writableAt rd
  | .movsg _ rs => l.readableAt rs
  | .add _ _ _ | .addi _ _ _ | .addu _ _ _ | .addui _ _ _ | .sub _ _ _ | .subi _ _ _
  | .subu _ _ _ | .subui _ _ _ | .mult _ _ _ | .multi _ _ _ | .multu _ _ _ | .multui _ _ _
  | .div _ _ _ | .divi _ _ _ | .divu _ _ _ | .divui _ _ _ | .rem _ _ _ | .remi _ _ _
  | .remu _ _ _ | .remui _ _ _ | .sll _ _ _ | .slli _ _ _ | .and _ _ _ | .andi _ _ _
  | .srl _ _ _ | .srli _ _ _ | .or _ _ _ | .ori _ _ _ | .sra _ _ _ | .srai _ _ _ | .xor _ _ _
  | .xori _ _ _ | .lhi _ _ | .la _ _ | .slt _ _ _ | .slti _ _ _ | .sltu _ _ _ | .sltui _ _ _
  | .sgt _ _ _ | .sgti _ _ _ | .sgtu _ _ _ | .sgtui _ _ _ | .sle _ _ _ | .slei _ _ _
  | .sleu _ _ _ | .sleui _ _ _ | .sge _ _ _ | .sgei _ _ _ | .sgeu _ _ _ | .sgeui _ _ _
  | .seq _ _ _ | .seqi _ _ _ | .sequ _ _ _ | .sequi _ _ _ | .sne _ _ _ | .snei _ _ _
  | .sneu _ _ _ | .sneui _ _ _ | .j _ | .jr _ | .jal _ | .jalr _ | .beqz _ _ | .bnez _ _
  | .lw _ _ _ | .sw _ _ _ | .brk | .syscall | .rfe => true

/-- Well-formed under the default profile (R41). -/
def Instr.wellFormed (i : Instr) : Bool := i.wellFormedIn SprLayout.profile

/-- The region is not empty and lies inside the 2^20 word addresses (R61). -/
def Region.wellFormed (r : Region) : Bool := 0 < r.size && r.base + r.size ≤ 1048576

/-- The two regions share no address. -/
def Region.disjoint (r q : Region) : Bool :=
  r.base + r.size ≤ q.base || q.base + q.size ≤ r.base

/-- Every region is well formed and no two of them overlap (R70: each address has one kind). -/
def MemMap.wellFormed (m : MemMap) : Bool :=
  m.regions.all Region.wellFormed &&
    decide (m.regions.Pairwise (fun r q => Region.disjoint r q = true))

/-- The layout provides the roles D16 asks of a replacement (the mode bits, a cause record, a handler
address, `ear`), and the fields of `$cctrl` lie apart inside a word (R42). -/
def SprLayout.wellFormed (l : SprLayout) : Bool :=
  [Special.cctrl, .estat, .evec, .ear].all (fun k => l.slots.toList.contains (some k)) &&
    decide (l.imaskBit + 8 ≤ 32) && [l.oieBit, l.ieBit, l.okuBit, l.kuBit].all (fun k =>
      decide (k < 32) && (decide (k < l.imaskBit) || decide (l.imaskBit + 8 ≤ k))) &&
    decide ([l.oieBit, l.ieBit, l.okuBit, l.kuBit].Nodup)

/-- The bits of the interrupt lines lie inside a word (R273). -/
def CauseEncoding.wellFormed (c : CauseEncoding) : Bool := decide (c.irqBit + 8 ≤ 32)

/-- The map, the layout and the cause encoding are well formed. -/
def Platform.wellFormed (p : Platform) : Bool :=
  p.memMap.wellFormed && p.spr.wellFormed && p.causes.wellFormed

end Sys2Proof
end

