-- ==== Sys2Proof/Certificates/Slice0/Obligations.lean ====
section
/-! DEFINITION. The statements for the provers.  Each says in its docstring which part of the spec it
formalises; the words they use are defined in Sys2Proof/Safety.lean. -/

open Sys2Proof Sys2Proof.Machine

/-- and, or, xor write the bitwise result of Rs and Rt to Rd and change nothing else.  Basis: stated,
R171; R173; R175. -/
def Obligations.LogicalRegisterResults : Prop :=
  ∀ (rd rs rt : Reg) (s : State) (v : Word), HasSuccessor s →
    (IsWordOf (0b0000#4 ++ rd ++ rs ++ 0b1011#4 ++ 0#12 ++ rt) (.and rd rs rt) ∧
      ((∀ k, v.getLsbD k = (and ((s.reg rs).getLsbD k) ((s.reg rt).getLsbD k))) →
        Completes (.and rd rs rt) s rd v)) ∧
    (IsWordOf (0b0000#4 ++ rd ++ rs ++ 0b1101#4 ++ 0#12 ++ rt) (.or rd rs rt) ∧
      ((∀ k, v.getLsbD k = (or ((s.reg rs).getLsbD k) ((s.reg rt).getLsbD k))) →
        Completes (.or rd rs rt) s rd v)) ∧
    (IsWordOf (0b0000#4 ++ rd ++ rs ++ 0b1111#4 ++ 0#12 ++ rt) (.xor rd rs rt) ∧
      ((∀ k, v.getLsbD k = (xor ((s.reg rs).getLsbD k) ((s.reg rt).getLsbD k))) →
        Completes (.xor rd rs rt) s rd v))

/-- andi, ori, xori combine Rs with the zero-extended immediate.  Basis: stated, R172; R174; R176. -/
def Obligations.LogicalImmediateResults : Prop :=
  ∀ (rd rs : Reg) (imm : Imm) (s : State) (v : Word), HasSuccessor s →
    (IsWordOf (0b0001#4 ++ rd ++ rs ++ 0b1011#4 ++ imm) (.andi rd rs imm) ∧
      ((∀ k, v.getLsbD k = (and ((s.reg rs).getLsbD k) (imm.getLsbD k))) →
        Completes (.andi rd rs imm) s rd v)) ∧
    (IsWordOf (0b0001#4 ++ rd ++ rs ++ 0b1101#4 ++ imm) (.ori rd rs imm) ∧
      ((∀ k, v.getLsbD k = (or ((s.reg rs).getLsbD k) (imm.getLsbD k))) →
        Completes (.ori rd rs imm) s rd v)) ∧
    (IsWordOf (0b0001#4 ++ rd ++ rs ++ 0b1111#4 ++ imm) (.xori rd rs imm) ∧
      ((∀ k, v.getLsbD k = (xor ((s.reg rs).getLsbD k) (imm.getLsbD k))) →
        Completes (.xori rd rs imm) s rd v))

/-- sll, srl, sra shift Rs by the low five bits of Rt.  Basis: stated, R177; R179; R181. -/
def Obligations.ShiftRegisterResults : Prop :=
  ∀ (rd rs rt : Reg) (s : State), HasSuccessor s →
    (IsWordOf (0b0000#4 ++ rd ++ rs ++ 0b1010#4 ++ 0#12 ++ rt) (.sll rd rs rt) ∧
      Completes (.sll rd rs rt) s rd (BitVec.ofNat 32 ((s.reg rs).toNat * 2 ^ ((s.reg rt).toNat % 32)))) ∧
    (IsWordOf (0b0000#4 ++ rd ++ rs ++ 0b1100#4 ++ 0#12 ++ rt) (.srl rd rs rt) ∧
      Completes (.srl rd rs rt) s rd (BitVec.ofNat 32 ((s.reg rs).toNat / 2 ^ ((s.reg rt).toNat % 32)))) ∧
    (IsWordOf (0b0000#4 ++ rd ++ rs ++ 0b1110#4 ++ 0#12 ++ rt) (.sra rd rs rt) ∧
      Completes (.sra rd rs rt) s rd (BitVec.ofInt 32 ((s.reg rs).toInt / 2 ^ ((s.reg rt).toNat % 32))))

/-- slli, srli, srai shift Rs by the low five bits of the immediate.  Basis: stated, R178; R180; R182. -/
def Obligations.ShiftImmediateResults : Prop :=
  ∀ (rd rs : Reg) (imm : Imm) (s : State), HasSuccessor s →
    (IsWordOf (0b0001#4 ++ rd ++ rs ++ 0b1010#4 ++ imm) (.slli rd rs imm) ∧
      Completes (.slli rd rs imm) s rd (BitVec.ofNat 32 ((s.reg rs).toNat * 2 ^ (imm.toNat % 32)))) ∧
    (IsWordOf (0b0001#4 ++ rd ++ rs ++ 0b1100#4 ++ imm) (.srli rd rs imm) ∧
      Completes (.srli rd rs imm) s rd (BitVec.ofNat 32 ((s.reg rs).toNat / 2 ^ (imm.toNat % 32)))) ∧
    (IsWordOf (0b0001#4 ++ rd ++ rs ++ 0b1110#4 ++ imm) (.srai rd rs imm) ∧
      Completes (.srai rd rs imm) s rd (BitVec.ofInt 32 ((s.reg rs).toInt / 2 ^ (imm.toNat % 32))))

/-- slt sgt sle sge seq sne compare Rs with Rt as signed numbers.  Basis: stated, R191; R195; R199;
R203; R207; R211. -/
def Obligations.SignedTestRegisterResults : Prop :=
  ∀ (rd rs rt : Reg) (s : State), HasSuccessor s →
    (IsWordOf (0b0010#4 ++ rd ++ rs ++ 0b0000#4 ++ 0#12 ++ rt) (.slt rd rs rt) ∧
      Completes (.slt rd rs rt) s rd (if (s.reg rs).toInt < (s.reg rt).toInt then 1#32 else 0#32)) ∧
    (IsWordOf (0b0010#4 ++ rd ++ rs ++ 0b0010#4 ++ 0#12 ++ rt) (.sgt rd rs rt) ∧
      Completes (.sgt rd rs rt) s rd (if (s.reg rs).toInt > (s.reg rt).toInt then 1#32 else 0#32)) ∧
    (IsWordOf (0b0010#4 ++ rd ++ rs ++ 0b0100#4 ++ 0#12 ++ rt) (.sle rd rs rt) ∧
      Completes (.sle rd rs rt) s rd (if (s.reg rs).toInt ≤ (s.reg rt).toInt then 1#32 else 0#32)) ∧
    (IsWordOf (0b0010#4 ++ rd ++ rs ++ 0b0110#4 ++ 0#12 ++ rt) (.sge rd rs rt) ∧
      Completes (.sge rd rs rt) s rd (if (s.reg rs).toInt ≥ (s.reg rt).toInt then 1#32 else 0#32)) ∧
    (IsWordOf (0b0010#4 ++ rd ++ rs ++ 0b1000#4 ++ 0#12 ++ rt) (.seq rd rs rt) ∧
      Completes (.seq rd rs rt) s rd (if (s.reg rs).toInt = (s.reg rt).toInt then 1#32 else 0#32)) ∧
    (IsWordOf (0b0010#4 ++ rd ++ rs ++ 0b1010#4 ++ 0#12 ++ rt) (.sne rd rs rt) ∧
      Completes (.sne rd rs rt) s rd (if (s.reg rs).toInt ≠ (s.reg rt).toInt then 1#32 else 0#32))

/-- sltu sgtu sleu sgeu sequ sneu compare Rs with Rt as unsigned numbers.  Basis: stated, R193; R197;
R201; R205; R209; R213. -/
def Obligations.UnsignedTestRegisterResults : Prop :=
  ∀ (rd rs rt : Reg) (s : State), HasSuccessor s →
    (IsWordOf (0b0010#4 ++ rd ++ rs ++ 0b0001#4 ++ 0#12 ++ rt) (.sltu rd rs rt) ∧
      Completes (.sltu rd rs rt) s rd (if (s.reg rs).toNat < (s.reg rt).toNat then 1#32 else 0#32)) ∧
    (IsWordOf (0b0010#4 ++ rd ++ rs ++ 0b0011#4 ++ 0#12 ++ rt) (.sgtu rd rs rt) ∧
      Completes (.sgtu rd rs rt) s rd (if (s.reg rs).toNat > (s.reg rt).toNat then 1#32 else 0#32)) ∧
    (IsWordOf (0b0010#4 ++ rd ++ rs ++ 0b0101#4 ++ 0#12 ++ rt) (.sleu rd rs rt) ∧
      Completes (.sleu rd rs rt) s rd (if (s.reg rs).toNat ≤ (s.reg rt).toNat then 1#32 else 0#32)) ∧
    (IsWordOf (0b0010#4 ++ rd ++ rs ++ 0b0111#4 ++ 0#12 ++ rt) (.sgeu rd rs rt) ∧
      Completes (.sgeu rd rs rt) s rd (if (s.reg rs).toNat ≥ (s.reg rt).toNat then 1#32 else 0#32)) ∧
    (IsWordOf (0b0010#4 ++ rd ++ rs ++ 0b1001#4 ++ 0#12 ++ rt) (.sequ rd rs rt) ∧
      Completes (.sequ rd rs rt) s rd (if (s.reg rs).toNat = (s.reg rt).toNat then 1#32 else 0#32)) ∧
    (IsWordOf (0b0010#4 ++ rd ++ rs ++ 0b1011#4 ++ 0#12 ++ rt) (.sneu rd rs rt) ∧
      Completes (.sneu rd rs rt) s rd (if (s.reg rs).toNat ≠ (s.reg rt).toNat then 1#32 else 0#32))

/-- slti sgti slei sgei seqi snei compare Rs with the sign-extended immediate as signed numbers.
Basis: stated, R192; R196; R200; R204; R208; R212. -/
def Obligations.SignedTestImmediateResults : Prop :=
  ∀ (rd rs : Reg) (imm : Imm) (s : State), HasSuccessor s →
    (IsWordOf (0b0011#4 ++ rd ++ rs ++ 0b0000#4 ++ imm) (.slti rd rs imm) ∧
      Completes (.slti rd rs imm) s rd (if (s.reg rs).toInt < imm.toInt then 1#32 else 0#32)) ∧
    (IsWordOf (0b0011#4 ++ rd ++ rs ++ 0b0010#4 ++ imm) (.sgti rd rs imm) ∧
      Completes (.sgti rd rs imm) s rd (if (s.reg rs).toInt > imm.toInt then 1#32 else 0#32)) ∧
    (IsWordOf (0b0011#4 ++ rd ++ rs ++ 0b0100#4 ++ imm) (.slei rd rs imm) ∧
      Completes (.slei rd rs imm) s rd (if (s.reg rs).toInt ≤ imm.toInt then 1#32 else 0#32)) ∧
    (IsWordOf (0b0011#4 ++ rd ++ rs ++ 0b0110#4 ++ imm) (.sgei rd rs imm) ∧
      Completes (.sgei rd rs imm) s rd (if (s.reg rs).toInt ≥ imm.toInt then 1#32 else 0#32)) ∧
    (IsWordOf (0b0011#4 ++ rd ++ rs ++ 0b1000#4 ++ imm) (.seqi rd rs imm) ∧
      Completes (.seqi rd rs imm) s rd (if (s.reg rs).toInt = imm.toInt then 1#32 else 0#32)) ∧
    (IsWordOf (0b0011#4 ++ rd ++ rs ++ 0b1010#4 ++ imm) (.snei rd rs imm) ∧
      Completes (.snei rd rs imm) s rd (if (s.reg rs).toInt ≠ imm.toInt then 1#32 else 0#32))

/-- sltui sgtui sleui sgeui sequi sneui compare Rs with the zero-extended immediate as unsigned
numbers.  Basis: stated, R194; R198; R202; R206; R210; R214. -/
def Obligations.UnsignedTestImmediateResults : Prop :=
  ∀ (rd rs : Reg) (imm : Imm) (s : State), HasSuccessor s →
    (IsWordOf (0b0011#4 ++ rd ++ rs ++ 0b0001#4 ++ imm) (.sltui rd rs imm) ∧
      Completes (.sltui rd rs imm) s rd (if (s.reg rs).toNat < imm.toNat then 1#32 else 0#32)) ∧
    (IsWordOf (0b0011#4 ++ rd ++ rs ++ 0b0011#4 ++ imm) (.sgtui rd rs imm) ∧
      Completes (.sgtui rd rs imm) s rd (if (s.reg rs).toNat > imm.toNat then 1#32 else 0#32)) ∧
    (IsWordOf (0b0011#4 ++ rd ++ rs ++ 0b0101#4 ++ imm) (.sleui rd rs imm) ∧
      Completes (.sleui rd rs imm) s rd (if (s.reg rs).toNat ≤ imm.toNat then 1#32 else 0#32)) ∧
    (IsWordOf (0b0011#4 ++ rd ++ rs ++ 0b0111#4 ++ imm) (.sgeui rd rs imm) ∧
      Completes (.sgeui rd rs imm) s rd (if (s.reg rs).toNat ≥ imm.toNat then 1#32 else 0#32)) ∧
    (IsWordOf (0b0011#4 ++ rd ++ rs ++ 0b1001#4 ++ imm) (.sequi rd rs imm) ∧
      Completes (.sequi rd rs imm) s rd (if (s.reg rs).toNat = imm.toNat then 1#32 else 0#32)) ∧
    (IsWordOf (0b0011#4 ++ rd ++ rs ++ 0b1011#4 ++ imm) (.sneui rd rs imm) ∧
      Completes (.sneui rd rs imm) s rd (if (s.reg rs).toNat ≠ imm.toNat then 1#32 else 0#32))

/-- lhi and la load a constant and change nothing else.  Basis: stated, R151; R152. -/
def Obligations.LoadConstantResults : Prop :=
  (∀ (rd : Reg) (imm : Imm) (s : State), HasSuccessor s →
    IsWordOf (0b0011#4 ++ rd ++ 0#4 ++ 0b1110#4 ++ imm) (.lhi rd imm) ∧
      Completes (.lhi rd imm) s rd (BitVec.ofNat 32 (imm.toNat * 65536))) ∧
  (∀ (rd : Reg) (addr : Addr) (s : State), HasSuccessor s →
    IsWordOf (0b1100#4 ++ rd ++ 0#4 ++ addr) (.la rd addr) ∧
      Completes (.la rd addr) s rd (BitVec.ofNat 32 addr.toNat))

/-- The eleven sign-extended immediate forms act as their register forms on the sign-extended
immediate.  Basis: stated, R100. -/
def Obligations.SignExtendedImmediateForms : Prop :=
  ∀ (rd rs rt : Reg) (imm : Imm) (s : State),
    (∀ k, k < 32 → (s.reg rt).getLsbD k = imm.getLsbD (min k 15)) →
    -32768 ≤ (s.reg rt).toInt ∧ (s.reg rt).toInt ≤ 32767 ∧
    exec (.addi rd rs imm) s = exec (.add rd rs rt) s ∧
    exec (.subi rd rs imm) s = exec (.sub rd rs rt) s ∧
    exec (.multi rd rs imm) s = exec (.mult rd rs rt) s ∧
    exec (.divi rd rs imm) s = exec (.div rd rs rt) s ∧
    exec (.remi rd rs imm) s = exec (.rem rd rs rt) s ∧
    exec (.slti rd rs imm) s = exec (.slt rd rs rt) s ∧
    exec (.sgti rd rs imm) s = exec (.sgt rd rs rt) s ∧
    exec (.slei rd rs imm) s = exec (.sle rd rs rt) s ∧
    exec (.sgei rd rs imm) s = exec (.sge rd rs rt) s ∧
    exec (.seqi rd rs imm) s = exec (.seq rd rs rt) s ∧
    exec (.snei rd rs imm) s = exec (.sne rd rs rt) s

/-- The fourteen zero-extended immediate forms act as their register forms on the zero-extended
immediate.  Basis: stated, R101. -/
def Obligations.ZeroExtendedImmediateForms : Prop :=
  ∀ (rd rs rt : Reg) (imm : Imm) (s : State),
    (∀ k, (s.reg rt).getLsbD k = (decide (k < 16) && imm.getLsbD k)) →
    (s.reg rt).toNat ≤ 65535 ∧
    exec (.addui rd rs imm) s = exec (.addu rd rs rt) s ∧
    exec (.subui rd rs imm) s = exec (.subu rd rs rt) s ∧
    exec (.multui rd rs imm) s = exec (.multu rd rs rt) s ∧
    exec (.divui rd rs imm) s = exec (.divu rd rs rt) s ∧
    exec (.remui rd rs imm) s = exec (.remu rd rs rt) s ∧
    exec (.andi rd rs imm) s = exec (.and rd rs rt) s ∧
    exec (.ori rd rs imm) s = exec (.or rd rs rt) s ∧
    exec (.xori rd rs imm) s = exec (.xor rd rs rt) s ∧
    exec (.sltui rd rs imm) s = exec (.sltu rd rs rt) s ∧
    exec (.sgtui rd rs imm) s = exec (.sgtu rd rs rt) s ∧
    exec (.sleui rd rs imm) s = exec (.sleu rd rs rt) s ∧
    exec (.sgeui rd rs imm) s = exec (.sgeu rd rs rt) s ∧
    exec (.sequi rd rs imm) s = exec (.sequ rd rs rt) s ∧
    exec (.sneui rd rs imm) s = exec (.sneu rd rs rt) s ∧
    (HasSuccessor s → ∃ u v x, Completes (.andi rd rs imm) s rd u ∧ u.extractLsb' 16 16 = 0#16 ∧
      Completes (.ori rd rs imm) s rd v ∧ v.extractLsb' 16 16 = (s.reg rs).extractLsb' 16 16 ∧
      Completes (.xori rd rs imm) s rd x ∧ x.extractLsb' 16 16 = (s.reg rs).extractLsb' 16 16)

/-- A shift amount is the low five bits of the immediate or of Rt; the other bits are ignored.  Basis:
stated, R102. -/
def Obligations.ShiftAmountsUseFiveBits : Prop :=
  ∀ (rd rs rt ru : Reg) (imm jmm : Imm) (s : State),
    (HasSuccessor s →
      Completes (.slli rd rs imm) s rd (s.reg rs <<< (imm.toNat % 32)) ∧
      Completes (.srli rd rs imm) s rd (s.reg rs >>> (imm.toNat % 32)) ∧
      Completes (.srai rd rs imm) s rd ((s.reg rs).sshiftRight (imm.toNat % 32)) ∧
      Completes (.sll rd rs rt) s rd (s.reg rs <<< ((s.reg rt).toNat % 32)) ∧
      Completes (.srl rd rs rt) s rd (s.reg rs >>> ((s.reg rt).toNat % 32)) ∧
      Completes (.sra rd rs rt) s rd ((s.reg rs).sshiftRight ((s.reg rt).toNat % 32))) ∧
    (imm.toNat % 32 = jmm.toNat % 32 →
      exec (.slli rd rs imm) s = exec (.slli rd rs jmm) s ∧
      exec (.srli rd rs imm) s = exec (.srli rd rs jmm) s ∧
      exec (.srai rd rs imm) s = exec (.srai rd rs jmm) s) ∧
    ((s.reg rt).toNat % 32 = (s.reg ru).toNat % 32 →
      exec (.sll rd rs rt) s = exec (.sll rd rs ru) s ∧
      exec (.srl rd rs rt) s = exec (.srl rd rs ru) s ∧
      exec (.sra rd rs rt) s = exec (.sra rd rs ru) s) ∧
    ((s.reg rt).toNat % 32 = imm.toNat % 32 →
      exec (.slli rd rs imm) s = exec (.sll rd rs rt) s ∧
      exec (.srli rd rs imm) s = exec (.srl rd rs rt) s ∧
      exec (.srai rd rs imm) s = exec (.sra rd rs rt) s)

/-- add, addi, sub, subi write the exact signed result when it fits.  Basis: derived, 40_arithmetic.md
Addition, Subtraction (rules 131, 132, 135, 136); 40_arithmetic.md section 1 (decision D8).  When
the exact sum (difference) of Rs and Rt, or of Rs and the signed immediate, is within -2^31 to
2^31-1, exec completes: Rd gets its 32-bit form (nothing for $0), pc advances, nothing else
changes. Reading two's complement (log entry 23) and operands before the write (log entry 16) is
the spec's own decision. (HasSuccessor: PC_WRAP is wrap, its decided value, or pc is not 0xFFFFF.) -/
def Obligations.SignedAddSubResults : Prop :=
  ∀ (rd rs rt : Reg) (imm : Imm) (s : State), HasSuccessor s →
    (-2147483648 ≤ (s.reg rs).toInt + (s.reg rt).toInt → (s.reg rs).toInt + (s.reg rt).toInt ≤ 2147483647 →
      Completes (.add rd rs rt) s rd (BitVec.ofInt 32 ((s.reg rs).toInt + (s.reg rt).toInt))) ∧
    (-2147483648 ≤ (s.reg rs).toInt + imm.toInt → (s.reg rs).toInt + imm.toInt ≤ 2147483647 →
      Completes (.addi rd rs imm) s rd (BitVec.ofInt 32 ((s.reg rs).toInt + imm.toInt))) ∧
    (-2147483648 ≤ (s.reg rs).toInt - (s.reg rt).toInt → (s.reg rs).toInt - (s.reg rt).toInt ≤ 2147483647 →
      Completes (.sub rd rs rt) s rd (BitVec.ofInt 32 ((s.reg rs).toInt - (s.reg rt).toInt))) ∧
    (-2147483648 ≤ (s.reg rs).toInt - imm.toInt → (s.reg rs).toInt - imm.toInt ≤ 2147483647 →
      Completes (.subi rd rs imm) s rd (BitVec.ofInt 32 ((s.reg rs).toInt - imm.toInt)))

/-- addu, addui, subu, subui write the exact unsigned result when it fits.  Basis: derived,
40_arithmetic.md Addition, Subtraction (rules 133, 134, 137, 138); 40_arithmetic.md section 1
(decision D8).  When the exact unsigned sum (difference) is within 0 to 2^32-1, exec completes
with that value in Rd and changes nothing else but pc. (HasSuccessor: PC_WRAP is wrap, its decided
value, or pc is not 0xFFFFF.) -/
def Obligations.UnsignedAddSubResults : Prop :=
  ∀ (rd rs rt : Reg) (imm : Imm) (s : State), HasSuccessor s →
    (0 ≤ ((s.reg rs).toNat : Int) + (s.reg rt).toNat → ((s.reg rs).toNat : Int) + (s.reg rt).toNat ≤ 4294967295 →
      Completes (.addu rd rs rt) s rd (BitVec.ofInt 32 (((s.reg rs).toNat : Int) + (s.reg rt).toNat))) ∧
    (0 ≤ ((s.reg rs).toNat : Int) + imm.toNat → ((s.reg rs).toNat : Int) + imm.toNat ≤ 4294967295 →
      Completes (.addui rd rs imm) s rd (BitVec.ofInt 32 (((s.reg rs).toNat : Int) + imm.toNat))) ∧
    (0 ≤ ((s.reg rs).toNat : Int) - (s.reg rt).toNat → ((s.reg rs).toNat : Int) - (s.reg rt).toNat ≤ 4294967295 →
      Completes (.subu rd rs rt) s rd (BitVec.ofInt 32 (((s.reg rs).toNat : Int) - (s.reg rt).toNat))) ∧
    (0 ≤ ((s.reg rs).toNat : Int) - imm.toNat → ((s.reg rs).toNat : Int) - imm.toNat ≤ 4294967295 →
      Completes (.subui rd rs imm) s rd (BitVec.ofInt 32 (((s.reg rs).toNat : Int) - imm.toNat)))

/-- mult, multi, multu, multui write the exact product when it fits.  Basis: derived, 40_arithmetic.md
Multiplication (rules 139 to 142); 40_arithmetic.md section 1 (decision D8).  When the exact
signed (unsigned) product is within the signed (unsigned) 32-bit range, exec completes with it in
Rd and changes nothing else but pc. (HasSuccessor: PC_WRAP is wrap, its decided value, or pc is
not 0xFFFFF.) -/
def Obligations.MultiplyResults : Prop :=
  ∀ (rd rs rt : Reg) (imm : Imm) (s : State), HasSuccessor s →
    (-2147483648 ≤ (s.reg rs).toInt * (s.reg rt).toInt → (s.reg rs).toInt * (s.reg rt).toInt ≤ 2147483647 →
      Completes (.mult rd rs rt) s rd (BitVec.ofInt 32 ((s.reg rs).toInt * (s.reg rt).toInt))) ∧
    (-2147483648 ≤ (s.reg rs).toInt * imm.toInt → (s.reg rs).toInt * imm.toInt ≤ 2147483647 →
      Completes (.multi rd rs imm) s rd (BitVec.ofInt 32 ((s.reg rs).toInt * imm.toInt))) ∧
    (((s.reg rs).toNat : Int) * (s.reg rt).toNat ≤ 4294967295 →
      Completes (.multu rd rs rt) s rd (BitVec.ofInt 32 (((s.reg rs).toNat : Int) * (s.reg rt).toNat))) ∧
    (((s.reg rs).toNat : Int) * imm.toNat ≤ 4294967295 →
      Completes (.multui rd rs imm) s rd (BitVec.ofInt 32 (((s.reg rs).toNat : Int) * imm.toNat)))

/-- div, divi, rem, remi write the signed quotient and remainder, rounded as DIV_ROUND says.  Basis:
derived, 40_arithmetic.md Division, Remainder (rules 143, 144, 147, 148); 40_arithmetic.md Integer
arithmetic laws (decisions D10, D11).  For a divisor b that is not zero (Rt, or the signed
immediate) and the integers q, r with sint(Rs) = q*b + r and |r| < |b|: under toward_zero, with r
zero or of the dividend's sign, and under floor, with r zero or of the divisor's sign, div/divi
complete with q modulo 2^32 (so -2^31 by -1 gives 0x80000000, no exception) and rem/remi with r.
Such q, r exist. Under DIV_MIN_NEG1 refuse, -2^31 by -1 alone is refused. toward_zero and wrap are
the spec's decisions D10 and D11 (log entry 14). (HasSuccessor: PC_WRAP is wrap, its decided
value, or pc is not 0xFFFFF.) -/
def Obligations.SignedDivisionResults : Prop :=
  (∀ (rd rs rt : Reg) (s : State) (q r : Int), HasSuccessor s →
    (s.platform.divMinNeg1 = .wrap ∨ (s.reg rs).toInt ≠ -2147483648 ∨ (s.reg rt).toInt ≠ -1) →
    (s.reg rs).toInt = q * (s.reg rt).toInt + r → r.natAbs < (s.reg rt).toInt.natAbs →
    ((s.platform.divRound = .towardZero ∧ 0 ≤ r * (s.reg rs).toInt) ∨
      (s.platform.divRound = .floor ∧ 0 ≤ r * (s.reg rt).toInt)) →
      Completes (.div rd rs rt) s rd (BitVec.ofInt 32 q) ∧
      Completes (.rem rd rs rt) s rd (BitVec.ofInt 32 r)) ∧
  (∀ (rd rs : Reg) (imm : Imm) (s : State) (q r : Int), HasSuccessor s →
    (s.platform.divMinNeg1 = .wrap ∨ (s.reg rs).toInt ≠ -2147483648 ∨ imm.toInt ≠ -1) →
    (s.reg rs).toInt = q * imm.toInt + r → r.natAbs < imm.toInt.natAbs →
    ((s.platform.divRound = .towardZero ∧ 0 ≤ r * (s.reg rs).toInt) ∨
      (s.platform.divRound = .floor ∧ 0 ≤ r * imm.toInt)) →
      Completes (.divi rd rs imm) s rd (BitVec.ofInt 32 q) ∧
      Completes (.remi rd rs imm) s rd (BitVec.ofInt 32 r)) ∧
  (∀ a b : Int, b ≠ 0 → ∃ q r p m : Int, a = q * b + r ∧ r.natAbs < b.natAbs ∧ 0 ≤ r * a ∧
    a = p * b + m ∧ m.natAbs < b.natAbs ∧ 0 ≤ m * b) ∧
  (∀ (rd rs rt : Reg) (s : State), s.platform.divMinNeg1 = .refuse →
    (s.reg rs).toInt = -2147483648 →
      ((s.reg rt).toInt = -1 → exec (.div rd rs rt) s = .refused .divideMinByMinusOne ∧
        exec (.rem rd rs rt) s = .refused .divideMinByMinusOne) ∧
      exec (.divi rd rs 0xFFFF#16) s = .refused .divideMinByMinusOne ∧
      exec (.remi rd rs 0xFFFF#16) s = .refused .divideMinByMinusOne)

/-- divu, divui, remu, remui write the unsigned quotient and remainder.  Basis: derived,
40_arithmetic.md Division, Remainder (rules 145, 146, 149, 150); 40_arithmetic.md Integer
arithmetic laws.  For a divisor that is not zero (Rt, or the unsigned immediate), exec completes
with floor(uint(Rs)/b) or uint(Rs) mod b in Rd and changes nothing else but pc. (HasSuccessor:
PC_WRAP is wrap, its decided value, or pc is not 0xFFFFF.) -/
def Obligations.UnsignedDivisionResults : Prop :=
  ∀ (rd rs rt : Reg) (imm : Imm) (s : State), HasSuccessor s →
    (s.reg rt ≠ 0#32 →
      Completes (.divu rd rs rt) s rd (BitVec.ofNat 32 ((s.reg rs).toNat / (s.reg rt).toNat)) ∧
      Completes (.remu rd rs rt) s rd (BitVec.ofNat 32 ((s.reg rs).toNat % (s.reg rt).toNat))) ∧
    (imm ≠ 0#16 →
      Completes (.divui rd rs imm) s rd (BitVec.ofNat 32 ((s.reg rs).toNat / imm.toNat)) ∧
      Completes (.remui rd rs imm) s rd (BitVec.ofNat 32 ((s.reg rs).toNat % imm.toNat)))

/-- The twelve add, subtract and multiply instructions take Overflow exactly outside their range
(refused where $evec was never written).  Basis: derived, 60_exceptions.md section 2 (decisions
D9, D12); 60_exceptions.md section 3 (decisions D19 to D22); 40_arithmetic.md Integer arithmetic
laws.  For each of the twelve: if the exact result is outside the signed (unsigned) 32-bit range,
exec takes the exception: $estat 0x8000, $ear the next instruction's address, OIE/OKU saved, IE
cleared, KU set, pc evec[19:0]; no general register (under EXC_RD any: only Rd, which holds a free
value), no memory byte and no other register changes; and if it is inside, exec completes with
that result. The entry sequence is the spec's decision (log entries 13, 15). DecidedTrap: the
entry parameters at their decided values (D18 to D22) and a next address to save. Where entry has
no target, $evec never written since reset (R274), it is refused instead (log entry 33). -/
def Obligations.OverflowTraps : Prop :=
  ∀ (rd rs rt : Reg) (imm : Imm) (s : State), DecidedTrap s →
    (if (s.reg rs).toInt + (s.reg rt).toInt < -2147483648 ∨ 2147483647 < (s.reg rs).toInt + (s.reg rt).toInt
      then RaisesArith (.add rd rs rt) s rd 0x8000#32
      else Completes (.add rd rs rt) s rd (BitVec.ofInt 32 ((s.reg rs).toInt + (s.reg rt).toInt))) ∧
    (if (s.reg rs).toInt + imm.toInt < -2147483648 ∨ 2147483647 < (s.reg rs).toInt + imm.toInt
      then RaisesArith (.addi rd rs imm) s rd 0x8000#32
      else Completes (.addi rd rs imm) s rd (BitVec.ofInt 32 ((s.reg rs).toInt + imm.toInt))) ∧
    (if (s.reg rs).toInt - (s.reg rt).toInt < -2147483648 ∨ 2147483647 < (s.reg rs).toInt - (s.reg rt).toInt
      then RaisesArith (.sub rd rs rt) s rd 0x8000#32
      else Completes (.sub rd rs rt) s rd (BitVec.ofInt 32 ((s.reg rs).toInt - (s.reg rt).toInt))) ∧
    (if (s.reg rs).toInt - imm.toInt < -2147483648 ∨ 2147483647 < (s.reg rs).toInt - imm.toInt
      then RaisesArith (.subi rd rs imm) s rd 0x8000#32
      else Completes (.subi rd rs imm) s rd (BitVec.ofInt 32 ((s.reg rs).toInt - imm.toInt))) ∧
    (if (s.reg rs).toInt * (s.reg rt).toInt < -2147483648 ∨ 2147483647 < (s.reg rs).toInt * (s.reg rt).toInt
      then RaisesArith (.mult rd rs rt) s rd 0x8000#32
      else Completes (.mult rd rs rt) s rd (BitVec.ofInt 32 ((s.reg rs).toInt * (s.reg rt).toInt))) ∧
    (if (s.reg rs).toInt * imm.toInt < -2147483648 ∨ 2147483647 < (s.reg rs).toInt * imm.toInt
      then RaisesArith (.multi rd rs imm) s rd 0x8000#32
      else Completes (.multi rd rs imm) s rd (BitVec.ofInt 32 ((s.reg rs).toInt * imm.toInt))) ∧
    (if ((s.reg rs).toNat : Int) + (s.reg rt).toNat < 0 ∨ 4294967295 < ((s.reg rs).toNat : Int) + (s.reg rt).toNat
      then RaisesArith (.addu rd rs rt) s rd 0x8000#32
      else Completes (.addu rd rs rt) s rd (BitVec.ofInt 32 (((s.reg rs).toNat : Int) + (s.reg rt).toNat))) ∧
    (if ((s.reg rs).toNat : Int) + imm.toNat < 0 ∨ 4294967295 < ((s.reg rs).toNat : Int) + imm.toNat
      then RaisesArith (.addui rd rs imm) s rd 0x8000#32
      else Completes (.addui rd rs imm) s rd (BitVec.ofInt 32 (((s.reg rs).toNat : Int) + imm.toNat))) ∧
    (if ((s.reg rs).toNat : Int) - (s.reg rt).toNat < 0 ∨ 4294967295 < ((s.reg rs).toNat : Int) - (s.reg rt).toNat
      then RaisesArith (.subu rd rs rt) s rd 0x8000#32
      else Completes (.subu rd rs rt) s rd (BitVec.ofInt 32 (((s.reg rs).toNat : Int) - (s.reg rt).toNat))) ∧
    (if ((s.reg rs).toNat : Int) - imm.toNat < 0 ∨ 4294967295 < ((s.reg rs).toNat : Int) - imm.toNat
      then RaisesArith (.subui rd rs imm) s rd 0x8000#32
      else Completes (.subui rd rs imm) s rd (BitVec.ofInt 32 (((s.reg rs).toNat : Int) - imm.toNat))) ∧
    (if ((s.reg rs).toNat : Int) * (s.reg rt).toNat < 0 ∨ 4294967295 < ((s.reg rs).toNat : Int) * (s.reg rt).toNat
      then RaisesArith (.multu rd rs rt) s rd 0x8000#32
      else Completes (.multu rd rs rt) s rd (BitVec.ofInt 32 (((s.reg rs).toNat : Int) * (s.reg rt).toNat))) ∧
    (if ((s.reg rs).toNat : Int) * imm.toNat < 0 ∨ 4294967295 < ((s.reg rs).toNat : Int) * imm.toNat
      then RaisesArith (.multui rd rs imm) s rd 0x8000#32
      else Completes (.multui rd rs imm) s rd (BitVec.ofInt 32 (((s.reg rs).toNat : Int) * imm.toNat)))

/-- The eight divide and remainder instructions take DivideByZero when the divisor is zero (refused
where $evec was never written).  Basis: derived, 60_exceptions.md section 2 (decision D9);
60_exceptions.md section 3 (decisions D19 to D22).  When Rt is zero (div, divu, rem, remu) or the
immediate is zero (divi, divui, remi, remui, whatever Rs holds), exec takes the exception with
$estat 0x8000 and $ear the next instruction's address; Rd (but under EXC_RD any, where it holds a
free value) and everything but the entry's registers are unchanged (log entries 13, 15).
DecidedTrap: the entry parameters at their decided values (D18 to D22) and a next address to save.
Where entry has no target, $evec never written since reset (R274), it is refused instead (log
entry 33). -/
def Obligations.DivideByZeroTraps : Prop :=
  ∀ (rd rs rt : Reg) (s : State), DecidedTrap s →
    (s.reg rt = 0#32 →
      RaisesArith (.div rd rs rt) s rd 0x8000#32 ∧ RaisesArith (.divu rd rs rt) s rd 0x8000#32 ∧
      RaisesArith (.rem rd rs rt) s rd 0x8000#32 ∧ RaisesArith (.remu rd rs rt) s rd 0x8000#32) ∧
    RaisesArith (.divi rd rs 0#16) s rd 0x8000#32 ∧ RaisesArith (.divui rd rs 0#16) s rd 0x8000#32 ∧
    RaisesArith (.remi rd rs 0#16) s rd 0x8000#32 ∧ RaisesArith (.remui rd rs 0#16) s rd 0x8000#32

/-- add, addu, sub, subu: overflow read from the sign bits, the carry and the borrow.  Basis: derived,
40_arithmetic.md rules 131, 133, 135, 137: the Exceptions lines; 60_exceptions.md sections 2 and 3
(decisions D9, D12, D19 to D22).  add overflows iff bits 31 of Rs and Rt agree and bit 31 of the
32-bit sum differs; sub iff they differ and bit 31 of the difference differs from that of Rs; addu
iff there is a carry out of bit 31; subu iff Rs is below Rt; otherwise the wrapped 32-bit result
is written. The exception is the whole entry of 60_exceptions.md section 3 ($estat 0x8000, $ear
the next instruction's address), the spec's decision (log entries 13, 15). DecidedTrap: the entry
parameters at their decided values (D18 to D22) and a next address to save. Where entry has no
target, $evec never written since reset (R274), it is refused instead (log entry 33). -/
def Obligations.OverflowFromSignAndCarry : Prop :=
  ∀ (rd rs rt : Reg) (s : State), DecidedTrap s →
    (if (s.reg rs).msb = (s.reg rt).msb ∧ (s.reg rs + s.reg rt).msb ≠ (s.reg rs).msb
      then RaisesArith (.add rd rs rt) s rd 0x8000#32
      else Completes (.add rd rs rt) s rd (s.reg rs + s.reg rt)) ∧
    (if (s.reg rs).msb ≠ (s.reg rt).msb ∧ (s.reg rs - s.reg rt).msb ≠ (s.reg rs).msb
      then RaisesArith (.sub rd rs rt) s rd 0x8000#32
      else Completes (.sub rd rs rt) s rd (s.reg rs - s.reg rt)) ∧
    (if ((s.reg rs).setWidth 33 + (s.reg rt).setWidth 33).msb = true
      then RaisesArith (.addu rd rs rt) s rd 0x8000#32
      else Completes (.addu rd rs rt) s rd (s.reg rs + s.reg rt)) ∧
    (if (s.reg rs).ult (s.reg rt) = true
      then RaisesArith (.subu rd rs rt) s rd 0x8000#32
      else Completes (.subu rd rs rt) s rd (s.reg rs - s.reg rt))

/-- mult and multu: overflow read from the 64-bit product.  Basis: derived, 40_arithmetic.md rules
139, 141: the Exceptions lines; 60_exceptions.md sections 2 and 3 (decisions D9, D12, D19 to D22).
mult overflows iff the 64-bit signed product is not the sign extension of its low 32 bits; multu
iff the high 32 bits of the 64-bit unsigned product are not all 0; otherwise the low 32 bits are
written. The exception is the whole entry of 60_exceptions.md section 3 ($estat 0x8000, $ear the
next instruction's address), the spec's decision (log entries 13, 15). DecidedTrap: the entry
parameters at their decided values (D18 to D22) and a next address to save. Where entry has no
target, $evec never written since reset (R274), it is refused instead (log entry 33). -/
def Obligations.OverflowFromWideProduct : Prop :=
  ∀ (rd rs rt : Reg) (s : State), DecidedTrap s →
    (if (s.reg rs).signExtend 64 * (s.reg rt).signExtend 64 =
        (((s.reg rs).signExtend 64 * (s.reg rt).signExtend 64).setWidth 32).signExtend 64
      then Completes (.mult rd rs rt) s rd
        (((s.reg rs).signExtend 64 * (s.reg rt).signExtend 64).setWidth 32)
      else RaisesArith (.mult rd rs rt) s rd 0x8000#32) ∧
    (if ((s.reg rs).setWidth 64 * (s.reg rt).setWidth 64).extractLsb' 32 32 = 0#32
      then Completes (.multu rd rs rt) s rd
        (((s.reg rs).setWidth 64 * (s.reg rt).setWidth 64).setWidth 32)
      else RaisesArith (.multu rd rs rt) s rd 0x8000#32)

/-- srl is divu by a power of two; sll is multu where that does not trap; sra is div where no rounding
shows.  Basis: derived, 41_bitwise.md Laws.  If another register holds 2^n with n the low five
bits of Rt: srl answers what divu by it answers; sll answers what multu answers whenever the
product fits; and sra answers what div answers when n < 31 and Rs is not negative or is a multiple
of 2^n. -/
def Obligations.ShiftsAreMultiplicationAndDivision : Prop :=
  ∀ (rd rs rt rq : Reg) (s : State),
    (s.reg rq).toNat = 2 ^ ((s.reg rt).toNat % 32) →
    exec (.srl rd rs rt) s = exec (.divu rd rs rq) s ∧
    ((s.reg rs).toNat * (s.reg rq).toNat < 4294967296 →
      exec (.sll rd rs rt) s = exec (.multu rd rs rq) s) ∧
    ((s.reg rt).toNat % 32 < 31 → (0 ≤ (s.reg rs).toInt ∨ (s.reg rq).toInt ∣ (s.reg rs).toInt) →
      exec (.sra rd rs rt) s = exec (.div rd rs rq) s)

/-- Equality does not depend on signedness; exchanged operands; negated relations; signed against
unsigned order.  Basis: derived, 42_test.md Laws.  seq and sequ, sne and sneu answer the same; sgt
is slt, sge is sle with the operands exchanged, signed and unsigned; of sle and sgt, sge and slt,
sne and seq exactly one writes 1; signed and unsigned less-than agree when the sign bits are equal
and are opposite when they differ. (HasSuccessor: PC_WRAP is wrap, its decided value, or pc is not
0xFFFFF.) -/
def Obligations.TestInstructionRelations : Prop :=
  ∀ (rd rs rt : Reg) (s : State),
    (exec (.seq rd rs rt) s = exec (.sequ rd rs rt) s ∧
      exec (.sne rd rs rt) s = exec (.sneu rd rs rt) s) ∧
    (exec (.sgt rd rs rt) s = exec (.slt rd rt rs) s ∧ exec (.sge rd rs rt) s = exec (.sle rd rt rs) s ∧
      exec (.sgtu rd rs rt) s = exec (.sltu rd rt rs) s ∧
      exec (.sgeu rd rs rt) s = exec (.sleu rd rt rs) s) ∧
    (HasSuccessor s → ∃ v w x, Completes (.sgt rd rs rt) s rd v ∧ Completes (.sle rd rs rt) s rd (v ^^^ 1#32) ∧
      Completes (.slt rd rs rt) s rd w ∧ Completes (.sge rd rs rt) s rd (w ^^^ 1#32) ∧
      Completes (.seq rd rs rt) s rd x ∧ Completes (.sne rd rs rt) s rd (x ^^^ 1#32) ∧
      v.toNat ≤ 1 ∧ w.toNat ≤ 1 ∧ x.toNat ≤ 1) ∧
    (if (s.reg rs).msb = (s.reg rt).msb then exec (.slt rd rs rt) s = exec (.sltu rd rs rt) s
      else HasSuccessor s → ∃ v, v.toNat ≤ 1 ∧ Completes (.slt rd rs rt) s rd v ∧
        Completes (.sltu rd rs rt) s rd (v ^^^ 1#32))

/-- j goes to its address, jr to the low 20 bits of Rs, and nothing else changes.  Basis: stated,
R221; R222. -/
def Obligations.JumpResults : Prop :=
  (∀ (addr : Addr) (s : State), IsWordOf (0b0100#4 ++ 0#4 ++ 0#4 ++ addr) (.j addr) ∧ Jumps (.j addr) s addr) ∧
  (∀ (rs : Reg) (s : State), IsWordOf (0b0101#4 ++ 0#4 ++ rs ++ 0#20) (.jr rs) ∧
    Jumps (.jr rs) s (BitVec.ofNat 20 ((s.reg rs).toNat % 1048576)))

/-- jal and jalr save the address of the next instruction in $ra and jump.  Basis: derived,
43_branch.md section 2 (decisions D5, D6, D8).  exec completes: $ra gets (pc+1) modulo 2^20 with
bits 31:20 zero, pc gets the address field (jal) or the low 20 bits of the old Rs (jalr, also when
Rs is $ra); nothing else changes. Under PC_WRAP refuse, where 0xFFFFF has no next address, both
are refused there. The zero bits, the wrap and reading Rs first are decisions D6, D5, D8 (log
entries 16, 18). -/
def Obligations.JumpAndLinkResults : Prop :=
  ∀ (addr : Addr) (rs : Reg) (s : State),
    (HasSuccessor s → Links (.jal addr) s addr ∧
      Links (.jalr rs) s (BitVec.ofNat 20 ((s.reg rs).toNat % 1048576))) ∧
    (s.platform.pcWrap = .refuse → s.pc = 0xFFFFF#20 →
      exec (.jal addr) s = .refused (.pastLastAddress 0xFFFFF#20) ∧
      exec (.jalr rs) s = .refused (.pastLastAddress 0xFFFFF#20))

/-- beqz and bnez branch by the signed offset from the base, modulo 2^20.  Basis: derived,
43_branch.md section 3 (decisions D5, D7).  The base is pc+1, or pc under BRANCH_BASE current.
When all 32 bits of Rs are zero, beqz goes to (base+offset) modulo 2^20 and bnez to pc+1;
otherwise the other way round; nothing else changes. Under PC_WRAP refuse a taken branch whose sum
is outside the address space, and a branch not taken at 0xFFFFF, are refused. The base pc+1 and
the wrap are decisions D7, D5 (log entries 17, 18). -/
def Obligations.BranchResults : Prop :=
  ∀ (rs : Reg) (off : Addr) (s : State) (sum : Int) (target fall : Addr),
    sum = s.pc.toNat + (if s.platform.branchBase = .next then 1 else 0) + off.toInt →
    (target.toNat : Int) = sum % 1048576 → fall.toNat = (s.pc.toNat + 1) % 1048576 →
    (if s.platform.pcWrap = .wrap ∨ (0 ≤ sum ∧ sum < 1048576)
      then (s.reg rs = 0#32 → Jumps (.beqz rs off) s target) ∧
        (s.reg rs ≠ 0#32 → Jumps (.bnez rs off) s target)
      else (s.reg rs = 0#32 → exec (.beqz rs off) s = .refused (.pastLastAddress s.pc)) ∧
        (s.reg rs ≠ 0#32 → exec (.bnez rs off) s = .refused (.pastLastAddress s.pc))) ∧
    (if s.platform.pcWrap = .wrap ∨ s.pc.toNat < 1048575
      then (s.reg rs ≠ 0#32 → Jumps (.beqz rs off) s fall) ∧
        (s.reg rs = 0#32 → Jumps (.bnez rs off) s fall)
      else (s.reg rs ≠ 0#32 → exec (.beqz rs off) s = .refused (.pastLastAddress s.pc)) ∧
        (s.reg rs = 0#32 → exec (.bnez rs off) s = .refused (.pastLastAddress s.pc)))

/-- Load, store and branch addresses are 20-bit sums: sign extension and bits 31:20 make no
difference.  Basis: derived, 30_encoding.md section 3 (rules 105, 106); 44_memory_instructions.md
section 1 (decision D4).  The word address accessed by a base and an offset is the low 20 bits of
the base plus the 20-bit offset; a branch target is pc+1 (pc under BRANCH_BASE current) plus the
20-bit offset; with base 0 the address is the offset field itself; the effective address is the
32-bit sum. Ignoring the high bits is decision D4 (log entry 19). -/
def Obligations.OffsetsAddModulo : Prop :=
  ∀ (base : Word) (pc off : Addr),
    accessAddress base off = base.setWidth 20 + off ∧
    branchTarget .next pc off = pc + 1#20 + off ∧ branchTarget .current pc off = pc + off ∧
    accessAddress 0#32 off = off ∧
    (effectiveAddress base off).toNat = (((base.toNat : Int) + off.toInt) % 4294967296).toNat

/-- lw from ram or rom writes the word at the effective address to Rd and changes nothing else.
Basis: derived, 44_memory_instructions.md section 2 (decisions D4, D8); 20_memory.md section 1.
Where the map has ram or rom at the access address (base register plus offset, the model's
accessAddress), exec completes: Rd gets the word stored there; if nothing was ever stored there,
the word is made of the free values of its cells (any value of Config.unwrittenCell; log entry 7);
pc advances, no memory byte and no other register changes. (Reachable: EA_HIGH_BITS is ignore, its
decided value, or the effective address is below 2^20. HasSuccessor: PC_WRAP is wrap, its decided
value, or pc is not 0xFFFFF.) -/
def Obligations.LoadFromStorage : Prop :=
  ∀ (rd rs : Reg) (off : Addr) (s : State), Reachable (s.reg rs) off s → HasSuccessor s →
    (s.platform.memMap.kindAt (accessAddress (s.reg rs) off) = .ram ∨
      s.platform.memMap.kindAt (accessAddress (s.reg rs) off) = .rom) →
    ∃ v, Completes (.lw rd rs off) s rd v ∧
      (∀ w, s.mem.word? (accessAddress (s.reg rs) off) = some w → v = w) ∧
      ((∀ k, k < 4 → s.mem.read? (cellOf (accessAddress (s.reg rs) off) k) = none) →
        ∀ k, k < 4 → v.extractLsb' (8 * k) 8 =
          Config.unwrittenCell (cellOf (accessAddress (s.reg rs) off) k))

/-- sw to ram replaces the word at the effective address with Rd and changes nothing else.  Basis:
derived, 44_memory_instructions.md section 2 (decision D4); 20_memory.md section 1.  Where the map
has ram at the access address, exec completes: the word there is Rd (0 for $0); every memory byte
outside its four cells reads as before; no register, no special register changes; pc advances; the
model's own list of words stored to gains that one (log entry 21). (Reachable: EA_HIGH_BITS is
ignore, its decided value, or the effective address is below 2^20. HasSuccessor: PC_WRAP is wrap,
its decided value, or pc is not 0xFFFFF.) -/
def Obligations.StoreToRam : Prop :=
  ∀ (rd rs : Reg) (off : Addr) (s : State), Reachable (s.reg rs) off s → HasSuccessor s →
    s.platform.memMap.kindAt (accessAddress (s.reg rs) off) = .ram →
    ∃ t, exec (.sw rd rs off) s = .next t ∧
      t.mem.word? (accessAddress (s.reg rs) off) = some (s.reg rd) ∧
      SameMemoryBut (accessAddress (s.reg rs) off) s t ∧
      t.pc = s.pc + 1#20 ∧ SameRegs s t ∧ SameSpecials s t ∧ SameOutside s t ∧
      t.draws = s.draws ∧ t.deviceLog = s.deviceLog ∧
      ∀ b, b ∈ t.stored ↔ b = accessAddress (s.reg rs) off ∨ b ∈ s.stored

/-- lw and sw of a device word make exactly one access, handed to the environment in order.  Basis:
derived, 20_memory.md section 1 (decision D29).  Where the map has a device: lw completes with the
next free value (any value of Config.draw, used up by the read) in Rd and the read logged; sw
completes with the write logged; no memory byte and nothing else changes. The log and the free
value are the model's form (log entries 9, 10). (Reachable: EA_HIGH_BITS is ignore, its decided
value, or the effective address is below 2^20. HasSuccessor: PC_WRAP is wrap, its decided value,
or pc is not 0xFFFFF.) -/
def Obligations.DeviceAccesses : Prop :=
  ∀ (rd rs : Reg) (off : Addr) (s : State), Reachable (s.reg rs) off s → HasSuccessor s →
    s.platform.memMap.kindAt (accessAddress (s.reg rs) off) = .device →
    (∃ t, exec (.lw rd rs off) s = .next t ∧ Writes rd (Config.draw s.draws) s t ∧
      t.pc = s.pc + 1#20 ∧ SameMemory s t ∧ SameSpecials s t ∧ SameOutside s t ∧
      t.draws = s.draws + 1 ∧ t.stored = s.stored ∧
      t.deviceLog = .read (accessAddress (s.reg rs) off) (Config.draw s.draws) :: s.deviceLog) ∧
    (∃ t, exec (.sw rd rs off) s = .next t ∧ SameRegs s t ∧
      t.pc = s.pc + 1#20 ∧ SameMemory s t ∧ SameSpecials s t ∧ SameOutside s t ∧
      t.draws = s.draws ∧ t.stored = s.stored ∧
      t.deviceLog = .write (accessAddress (s.reg rs) off) (s.reg rd) :: s.deviceLog)

/-- An access to an absent address, a store to rom and a refused high address stop the machine.
Basis: derived, 20_memory.md section 2 (decision D29); 20_memory.md section 1 (rule 68, decision
D4).  Where the map has nothing, lw and sw end in the fault absentAddress; where it has rom, sw
ends in romStore (log entry 27); no value, no silent skip. Under EA_HIGH_BITS refuse, lw and sw
with bits 31:20 of the effective address not zero end in highAddress (log entry 19). (Reachable:
EA_HIGH_BITS is ignore, its decided value, or the effective address is below 2^20. HasSuccessor:
PC_WRAP is wrap, its decided value, or pc is not 0xFFFFF.) -/
def Obligations.AccessesWithoutBehaviourStop : Prop :=
  ∀ (rd rs : Reg) (off : Addr) (s : State),
    (Reachable (s.reg rs) off s → HasSuccessor s →
      (s.platform.memMap.kindAt (accessAddress (s.reg rs) off) = .absent →
        exec (.lw rd rs off) s = .fault (.absentAddress (accessAddress (s.reg rs) off)) ∧
        exec (.sw rd rs off) s = .fault (.absentAddress (accessAddress (s.reg rs) off))) ∧
      (s.platform.memMap.kindAt (accessAddress (s.reg rs) off) = .rom →
        exec (.sw rd rs off) s = .fault (.romStore (accessAddress (s.reg rs) off)))) ∧
    (s.platform.eaHighBits = .refuse → 1048576 ≤ (effectiveAddress (s.reg rs) off).toNat →
      exec (.lw rd rs off) s = .fault (.highAddress (effectiveAddress (s.reg rs) off)) ∧
      exec (.sw rd rs off) s = .fault (.highAddress (effectiveAddress (s.reg rs) off)))

/-- MemWrite replaces the whole word, is seen by every read and fetch until the word is written again,
and touches no other word.  Basis: derived, 20_memory.md section 1 (rules 62, 63, 66, 67);
20_memory.md section 2 (rule 77).  For every state, address and value: on ram the write succeeds;
after it and after any further writes of other words (laterWrites, none of them included) a read
of the address and, where fetches are coherent, a fetch at it give the value; every other address
reads as before and no register or mode bit changes (so no exception). On rom and on an undeclared
address there is no step; on a device word the write is handed to the environment and storage is
unchanged (the stops and the log are the model's form: log entries 10, 27; the list of words
stored to is the model's: log entry 21). -/
def Obligations.WordWriteThenRead : Prop :=
  ∀ (s : State) (a : Addr) (v : Word),
    (s.platform.memMap.kindAt a = .ram →
      ∃ t, s.memWrite a v = .ok t ∧ t = { s with mem := t.mem, stored := t.stored } ∧
        (∀ b, b ≠ a → t.mem.word b = s.mem.word b ∧ t.mem.word? b = s.mem.word? b) ∧
        ∀ (later : List (Addr × Word)) (u : State), (∀ x ∈ later, x.1 ≠ a) →
          laterWrites later t = .ok u → u.memRead a = .ok (v, u) ∧
            (s.platform.fetchCoherence = .coherent → (u.setPc a).fetch = .ok v)) ∧
    (s.platform.memMap.kindAt a = .rom → s.memWrite a v = .error (.romStore a)) ∧
    (s.platform.memMap.kindAt a = .absent → s.memWrite a v = .error (.absentAddress a)) ∧
    (s.platform.memMap.kindAt a = .device →
      s.memWrite a v = .ok { s with deviceLog := .write a v :: s.deviceLog })

/-- A store into the next instruction's word is what the very next step executes, or what it refuses.
Basis: derived, 20_memory.md section 3 (decision D26).  If sw stores to pc+1 in ram, then in the
state after it, with no interrupt taken and no user-mode refusal: where fetches are coherent the
step executes the instruction the stored word is (decision D26, log entry 21); under
IFETCH_COHERENT refuse_modified it faults. -/
def Obligations.StoreSeenByNextFetch : Prop :=
  ∀ (rd rs : Reg) (off : Addr) (s t : State) (i : Instr),
    exec (.sw rd rs off) s = .next t → accessAddress (s.reg rs) off = s.pc + 1#20 →
    s.platform.memMap.kindAt (s.pc + 1#20) = .ram → NoInterrupt t → MayStep t →
    (s.platform.fetchCoherence = .coherent → s.reg rd = encode i → step t = exec i (withLines t)) ∧
    (s.platform.fetchCoherence = .refuseModified → step t = .fault (.modifiedFetch (s.pc + 1#20)))

/-- movgs writes the named special register and nothing else.  Basis: derived, 45_special.md section 2
(decisions D16, D17, D31, D32).  Where the mode allows it: movgs to 8, 9, 10, 11, 12, 13 sets
$evec, $ear, $esp, $ers, $ptable, $rbase to Rs; movgs to 4 sets IMASK, KU, OKU, IE, OIE from bits
11:4, 3, 2, 1, 0 of Rs; pc advances; 8 also notes that $evec has been written (R274; log entry
33); every other field of the state is unchanged. The profile is the spec's general knowledge (log
entry 12). Under the default profile (SPR_LAYOUT) and where the successor of pc exists. -/
def Obligations.MoveToSpecialResults : Prop :=
  ∀ (rs : Reg) (s : State), MayUseSpecials s → HasSuccessor s →
    s.platform.spr = SprLayout.profile →
    exec (.movgs 8#4 rs) s = .next { s with evec := s.reg rs, evecWritten := true, pc := s.pc + 1#20 } ∧
    exec (.movgs 9#4 rs) s = .next { s with ear := s.reg rs, pc := s.pc + 1#20 } ∧
    exec (.movgs 10#4 rs) s = .next { s with esp := s.reg rs, pc := s.pc + 1#20 } ∧
    exec (.movgs 11#4 rs) s = .next { s with ers := s.reg rs, pc := s.pc + 1#20 } ∧
    exec (.movgs 12#4 rs) s = .next { s with ptable := s.reg rs, pc := s.pc + 1#20 } ∧
    exec (.movgs 13#4 rs) s = .next { s with rbase := s.reg rs, pc := s.pc + 1#20 } ∧
    exec (.movgs 4#4 rs) s = .next { s with
      imask := (s.reg rs).extractLsb' 4 8, ku := (s.reg rs).getLsbD 3, oku := (s.reg rs).getLsbD 2,
      ie := (s.reg rs).getLsbD 1, oie := (s.reg rs).getLsbD 0, pc := s.pc + 1#20 }

/-- movsg copies the named special register to Rd; the counters and the unspecified bits of $cctrl are
free.  Basis: derived, 45_special.md section 2 (decisions D16, D17, D31); 10_state.md section 4.
Where the mode allows it: movsg from 5, 8 to 13 completes with $estat, $evec, $ear, $esp, $ers,
$ptable, $rbase in Rd; from 6 and 7 with a free value; from 4 with a word whose bits 11:0 are
IMASK, KU, OKU, IE, OIE and whose bits 31:12 are free (any value of Config.draw, log entry 9);
nothing else changes. Under the default profile (SPR_LAYOUT) and where the successor of pc exists. -/
def Obligations.MoveFromSpecialResults : Prop :=
  ∀ (rd : Reg) (s : State), MayUseSpecials s → HasSuccessor s →
    s.platform.spr = SprLayout.profile →
    (Completes (.movsg rd 5#4) s rd s.estat ∧ Completes (.movsg rd 8#4) s rd s.evec ∧
      Completes (.movsg rd 9#4) s rd s.ear ∧ Completes (.movsg rd 10#4) s rd s.esp ∧
      Completes (.movsg rd 11#4) s rd s.ers ∧ Completes (.movsg rd 12#4) s rd s.ptable ∧
      Completes (.movsg rd 13#4) s rd s.rbase) ∧
    (∀ n, n = 4#4 ∨ n = 6#4 ∨ n = 7#4 → ∃ t v, exec (.movsg rd n) s = .next t ∧ Writes rd v s t ∧
      t.pc = s.pc + 1#20 ∧ SameMemory s t ∧ SameSpecials s t ∧ SameOutside s t ∧
      t.draws = s.draws + 1 ∧ t.deviceLog = s.deviceLog ∧ t.stored = s.stored ∧
      (n = 4#4 → v.extractLsb' 4 8 = s.imask ∧ v.getLsbD 3 = s.ku ∧ v.getLsbD 2 = s.oku ∧
        v.getLsbD 1 = s.ie ∧ v.getLsbD 0 = s.oie ∧
        v.extractLsb' 12 20 = (Config.draw s.draws).extractLsb' 12 20) ∧
      (n ≠ 4#4 → v = Config.draw s.draws))

/-- movgs and movsg naming a special register that does not exist, and movgs to $estat and the
counters, are refused.  Basis: derived, 45_special.md section 2 (decision D31).  Where the mode
allows it: numbers 0 to 3, 14 and 15 are refused by both, 5, 6 and 7 by movgs (log entry 20).
Under the default profile (SPR_LAYOUT). -/
def Obligations.SpecialMoveRefusals : Prop :=
  ∀ (n r : Reg) (s : State), MayUseSpecials s →
    s.platform.spr = SprLayout.profile →
    (n.toNat < 4 ∨ 14 ≤ n.toNat →
      exec (.movgs n r) s = .refused (.noSuchSpecial n) ∧
      exec (.movsg r n) s = .refused (.noSuchSpecial n)) ∧
    (n = 5#4 ∨ n = 6#4 ∨ n = 7#4 → exec (.movgs n r) s = .refused (.specialNotWritable n))

/-- Under the gpf policy movgs, movsg and rfe in user mode take the general protection exception
(refused where $evec was never written).  Basis: derived, 60_exceptions.md section 6 (decision
D24); 60_exceptions.md section 3 (decisions D19 to D22).  In user mode with USER_MODE_POLICY gpf,
each of the three (for every operand) takes the exception with $estat 0x1000 and $ear the next
instruction's address, and has none of its effect (log entry 5). DecidedTrap: the entry parameters
at their decided values (D18 to D22) and a next address to save. Where entry has no target, $evec
never written since reset (R274), it is refused instead (log entry 33). -/
def Obligations.UserModeProtection : Prop :=
  ∀ (a b : Reg) (s : State), DecidedTrap s → s.ku = false →
    s.platform.userMode = .gpf →
    Raises (.movgs a b) s 0x1000#32 ∧ Raises (.movsg a b) s 0x1000#32 ∧ Raises .rfe s 0x1000#32

/-- break and syscall enter the handler, in every mode and whatever IE is (refused where $evec was
never written).  Basis: derived, 45_special.md section 3; 60_exceptions.md section 3 (decisions
D19 to D22).  exec of break takes the exception with $estat 0x4000, of syscall with 0x2000: $ear
the next instruction's address, OIE and OKU the old IE and KU, IE 0, KU 1, pc evec[19:0]; no
general register, memory byte or other special register changes (log entry 13). With EAR_VALUE
faulting, a fixed handler and other cause words (the alternatives of D20 to D22): $ear the address
of the instruction itself, pc the fixed address, $estat the platform's word. DecidedTrap: the
entry parameters at their decided values (D18 to D22) and a next address to save. Where entry has
no target, $evec never written since reset (R274), it is refused instead (log entry 33). -/
def Obligations.BreakAndSyscallEnter : Prop :=
  (∀ s : State, DecidedTrap s →
    (HasTarget s →
      (∃ t, exec .brk s = .next t ∧ Entered 0x4000#32 (s.pc + 1#20) s t) ∧
      (∃ t, exec .syscall s = .next t ∧ Entered 0x2000#32 (s.pc + 1#20) s t)) ∧
    (¬ HasTarget s → exec .brk s = .refused .handlerUnset ∧
      exec .syscall s = .refused .handlerUnset)) ∧
  (∀ (s : State) (a : Addr), s.platform.excEntry = EntryStep.sequence →
    s.platform.earValue = .faulting → s.platform.excHandler = .fixed a →
    exec .brk s = .next { s with
      oie := s.ie, oku := s.ku, ie := false, ku := s.platform.kuKernel, ear := s.pc.setWidth 32,
      estat := s.platform.causes.breakpoint, pc := a } ∧
    exec .syscall s = .next { s with
      oie := s.ie, oku := s.ku, ie := false, ku := s.platform.kuKernel, ear := s.pc.setWidth 32,
      estat := s.platform.causes.systemCall, pc := a })

/-- rfe restores IE and KU from their saved copies and jumps to ear[19:0].  Basis: derived,
45_special.md section 4 (decisions D19, D33).  Where the mode allows it, exec of rfe completes: IE
gets OIE, KU gets OKU, pc the low 20 bits of $ear; every other field of the state is unchanged,
the saved bits among them. -/
def Obligations.ReturnFromExceptionResult : Prop :=
  ∀ s : State, MayUseSpecials s →
    exec .rfe s = .next { s with ie := s.oie, ku := s.oku, pc := s.ear.setWidth 20 }

/-- An exception followed at once by rfe resumes after the raising instruction with IE and KU as they
were.  Basis: derived, 60_exceptions.md section 4.  If an instruction raises an exception (its
execution is an entry saving pc+1), rfe in the state reached completes and gives IE, KU as before
the exception, pc the next instruction, OIE and OKU copies of them, $ear and $estat the entry's
values; general registers and memory as before the exception. KU_KERNEL_VALUE is 1 (D18). -/
def Obligations.EntryThenReturn : Prop :=
  ∀ (i : Instr) (s t : State) (cause : Word),
    s.platform.kuKernel = true → exec i s = .next t → Entered cause (s.pc + 1#20) s t →
    ∃ u, exec .rfe t = .next u ∧ u.ie = s.ie ∧ u.ku = s.ku ∧ u.pc = s.pc + 1#20 ∧
      u.oie = s.ie ∧ u.oku = s.ku ∧ u.ear = t.ear ∧ u.estat = cause ∧ SameRegs s u ∧ SameMemory s u

/-- A step with no interrupt executes the instruction whose word lies at pc.  Basis: derived,
00_scope.md section 4 (the execution step); 20_memory.md section 1 (instruction fetch).  If no
interrupt is taken, the word at pc (in ram or rom, and one a fetch may read) decodes to i under
the platform's policies, and user-mode steps are not refused, then the step is exec of i at the
state with this step's lines on them; in particular for the word encode i of every well-formed i.
The lines and their feed are all that step adds around exec. -/
def Obligations.StepRunsDecodedInstruction : Prop :=
  ∀ (s : State) (w : Word) (i : Instr),
    NoInterrupt s → WordAtPc w s → MayStep s →
    (s.decode w = .ok i ∨ (i.wellFormedIn s.platform.spr = true ∧ w = encode i)) →
    step s = exec i (withLines s)

/-- A pending unmasked line with IE set is taken before the fetch, in both modes (refused where $evec
was never written).  Basis: derived, 60_exceptions.md section 5 (decision D23); 60_exceptions.md
section 3 (rule 274).  If IE is 1 and a line of this step is pending and unmasked, the step is
interrupt entry: $ear the address of the instruction not executed, $estat bit 4+n set exactly when
line n is pending and unmasked and all other bits 0; everything else as entry leaves it; the lines
are not cleared. Where entry has no target, $evec never written since reset (R274), the step is
refused instead (log entry 33). DecidedEntry: the entry parameters at their decided values (D18,
D19, D21, D22; log entry 13). -/
def Obligations.InterruptEntry : Prop :=
  ∀ s : State, DecidedEntry s → s.ie = true → linesAt s &&& s.imask ≠ 0#8 →
    (HasTarget s → ∃ t cause, step s = .next t ∧ Entered cause s.pc (withLines s) t ∧
      ∀ n, cause.getLsbD n =
        (decide (4 ≤ n ∧ n < 12) && ((linesAt s).getLsbD (n - 4) && s.imask.getLsbD (n - 4)))) ∧
    (¬ HasTarget s → step s = .refused .handlerUnset)

/-- A reserved word at pc is refused, or under RESERVED_POLICY gpf takes the general protection
exception (refused where $evec was never written).  Basis: derived, 30_encoding.md section 4 (rule
112, decision D13); 60_exceptions.md section 6 (rules 291, 292); 60_exceptions.md section 3
(decisions D19 to D22).  If no interrupt is taken, the mode may step (kernel mode, or
USER_MODE_POLICY not refuse; log entry 24 has the order of the two checks) and the word at pc
matches no instruction under the platform's policies: under refuse the step is refused by name;
under gpf it is the entry with $estat 0x1000 and $ear pc+1 (log entries 6, 29). DecidedTrap: the
entry parameters at their decided values (D18 to D22) and a next address to save. Where entry has
no target, $evec never written since reset (R274), it is refused instead (log entry 33). -/
def Obligations.ReservedWordPolicies : Prop :=
  ∀ (s : State) (w : Word) (e : DecodeError),
    NoInterrupt s → WordAtPc w s → MayStep s → s.decode w = .error e →
    (s.platform.reserved = .refuse → step s = .refused (.reservedWord e)) ∧
    (s.platform.reserved = .gpf → DecidedTrap s →
      (HasTarget s → ∃ t, step s = .next t ∧ Entered 0x1000#32 (s.pc + 1#20) (withLines s) t) ∧
      (¬ HasTarget s → step s = .refused .handlerUnset))

/-- A fetch from an absent, device, never-written or refused word stops; a user-mode step stops under
refuse.  Basis: derived, 20_memory.md section 1 (rules 62, 69); 20_memory.md section 2 (rule 77,
decision D29); 20_memory.md section 3 (rule 75, decision D26); 93_implementation_defined.md U4;
60_exceptions.md section 6 (rule 291, decision D24); 70_reset_and_hazards.md section 3 (rule 323).
If no interrupt is taken and the mode may step: at an absent pc the step faults, at a device pc it
faults, at a word of ram or rom that nothing was stored to it faults, and under IFETCH_COHERENT
refuse_modified at a word stored to since reset it faults. In user mode under USER_MODE_POLICY
refuse the step is refused, whatever lies at pc, and the run is not over by a jump to itself (log
entries 7, 21, 24, 27). -/
def Obligations.StepsWithoutBehaviourStop : Prop :=
  ∀ s : State, NoInterrupt s →
    (MayStep s →
      (s.platform.memMap.kindAt s.pc = .absent → step s = .fault (.absentAddress s.pc)) ∧
      (s.platform.memMap.kindAt s.pc = .device → step s = .fault (.deviceFetch s.pc)) ∧
      (s.platform.memMap.kindAt s.pc = .ram ∨ s.platform.memMap.kindAt s.pc = .rom →
        (s.mem.word? s.pc = none → step s = .fault (.unwrittenFetch s.pc)) ∧
        (s.mem.word? s.pc ≠ none → s.platform.fetchCoherence = .refuseModified → s.pc ∈ s.stored →
          step s = .fault (.modifiedFetch s.pc)))) ∧
    (s.ku ≠ s.platform.kuKernel → s.platform.userMode = .refuse →
      step s = .refused .userModeStep ∧ s.atSelfJump = false)

/-- Decoding the word of any instruction gives the instruction back.  Basis: derived, 30_encoding.md
sections 1 to 3.  For every instruction with every operand, decodeWord (encode i) is i, and so it
is under every value of MBZ_POLICY and LHI_RS_IGNORED; and the decoder for table words reads it
from its 32 bits. -/
def Obligations.DecodeOfEncode : Prop :=
  ∀ i : Instr, decodeWord (encode i) = .ok i ∧
    (∀ mbz lhiRsIgnored, decodeUnder mbz lhiRsIgnored (encode i) = .ok i) ∧
    decodeTableWord 32 (encode i).toNat = some i

/-- Every word that decodes is the word of the instruction it decodes to: no word has two meanings, no
bit is dropped.  Basis: derived, 30_encoding.md sections 1 to 3.  For every word w and instruction
i, if decodeWord w is i then encode i is w; so the bytes of one instruction decode to it and leave
the rest. -/
def Obligations.EncodeOfDecode : Prop :=
  ∀ (w : Word) (i : Instr), decodeWord w = .ok i →
    encode i = w ∧ ∀ rest, decode (bytesOfWord w ++ rest) = .ok (i, rest)

/-- A word is the instruction of a row of the opcode table exactly when it fits the row's mask and
match.  Basis: derived, 30_encoding.md section 1 (rule 93); spec/opcode_table.json.  For every row
of the 71 and every word w: w and mask = match iff w decodes to an instruction of the row's
mnemonic. -/
def Obligations.OpcodeTableExact : Prop :=
  opcodeRows.length = 71 ∧ ∀ row ∈ opcodeRows, ∀ w : Word,
    (w &&& row.mask = row.pattern ↔ ∃ i, decodeWord w = .ok i ∧ i.mnemonic = row.mnemonic)

/-- A word is reserved exactly when one of the ten conditions of the reserved space holds.  Basis:
derived, 30_encoding.md section 4 (rule 113); 30_encoding.md section 3 (rules 108, 109, decisions
D14, D15).  decodeWord w is an error iff op is 13 to 15; or op 2 or 3 with func 15; or bits 15:4
not zero in a register form; or break/syscall/rfe, movgs/movsg, lhi, j/jal, jr/jalr, beqz/bnez, la
with a constant field not zero, as the list says. Under MBZ_POLICY ignore only the first two are
left; under LHI_RS_IGNORED all but that of lhi, and every word with op 3 and func 14 is an lhi
(log entry 22). -/
def Obligations.ReservedWordsExactly : Prop :=
  (∀ w : Word, (∃ e, decodeWord w = .error e) ↔
    (13 ≤ (opOf w).toNat ∨
    ((opOf w = 2#4 ∨ opOf w = 3#4) ∧ funcOf w = 15#4) ∨
    ((opOf w = 0#4 ∨ (opOf w = 2#4 ∧ (funcOf w).toNat ≤ 11)) ∧ w.extractLsb' 4 12 ≠ 0#12) ∨
    (opOf w = 2#4 ∧ 12 ≤ (funcOf w).toNat ∧ (funcOf w).toNat ≤ 14 ∧
      (w.extractLsb' 20 8 ≠ 0#8 ∨ w.extractLsb' 0 16 ≠ 0#16)) ∨
    (opOf w = 3#4 ∧ (funcOf w = 12#4 ∨ funcOf w = 13#4) ∧ w.extractLsb' 0 16 ≠ 0#16) ∨
    (opOf w = 3#4 ∧ funcOf w = 14#4 ∧ w.extractLsb' 20 4 ≠ 0#4) ∨
    ((opOf w = 4#4 ∨ opOf w = 6#4) ∧ w.extractLsb' 20 8 ≠ 0#8) ∨
    ((opOf w = 5#4 ∨ opOf w = 7#4) ∧ (w.extractLsb' 24 4 ≠ 0#4 ∨ w.extractLsb' 0 20 ≠ 0#20)) ∨
    ((opOf w = 10#4 ∨ opOf w = 11#4) ∧ w.extractLsb' 24 4 ≠ 0#4) ∨
    (opOf w = 12#4 ∧ w.extractLsb' 20 4 ≠ 0#4))) ∧
  (∀ (w : Word) (lhiRsIgnored : Bool), (∃ e, decodeUnder .ignore lhiRsIgnored w = .error e) ↔
    (13 ≤ (opOf w).toNat ∨ ((opOf w = 2#4 ∨ opOf w = 3#4) ∧ funcOf w = 15#4))) ∧
  (∀ w : Word, ((∃ e, decodeUnder .strict true w = .error e) ↔
      ∃ e, e ≠ .loadHighSource ∧ decodeWord w = .error e) ∧
    (opOf w = 3#4 → funcOf w = 14#4 → decodeUnder .strict true w = .ok (.lhi (rdOf w) (immOf w))))

/-- Words written out in the spec decode to the instructions they stand for.  Basis: derived,
95_test_vectors.md Part 1 and Part 2; 40_arithmetic.md to 45_special.md: the Example lines.  One
word of each family from the spec's own examples: add, addi, lhi, la, ori, sra, slt, sneui, jr,
jal, bnez, lw, sw, movgs, movsg, break, syscall, rfe; and a reserved one. -/
def Obligations.SampleWordsDecode : Prop :=
  decodeWord 0x03100002#32 = .ok (.add 3#4 1#4 2#4) ∧
  decodeWord 0x1310FFFC#32 = .ok (.addi 3#4 1#4 0xFFFC#16) ∧
  decodeWord 0x340EABCD#32 = .ok (.lhi 4#4 0xABCD#16) ∧
  decodeWord 0xC5012345#32 = .ok (.la 5#4 0x12345#20) ∧
  decodeWord 0x131DF0F0#32 = .ok (.ori 3#4 1#4 0xF0F0#16) ∧
  decodeWord 0x031E0002#32 = .ok (.sra 3#4 1#4 2#4) ∧
  decodeWord 0x23100002#32 = .ok (.slt 3#4 1#4 2#4) ∧
  decodeWord 0x3FFBFFFF#32 = .ok (.sneui 15#4 15#4 0xFFFF#16) ∧
  decodeWord 0x50F00000#32 = .ok (.jr 15#4) ∧
  decodeWord 0x60000200#32 = .ok (.jal 0x00200#20) ∧
  decodeWord 0xB02FFFFD#32 = .ok (.bnez 2#4 0xFFFFD#20) ∧
  decodeWord 0x83100002#32 = .ok (.lw 3#4 1#4 2#20) ∧
  decodeWord 0x9FE00000#32 = .ok (.sw 15#4 14#4 0#20) ∧
  decodeWord 0x381C0000#32 = .ok (.movgs 8#4 1#4) ∧
  decodeWord 0x319D0000#32 = .ok (.movsg 1#4 9#4) ∧
  decodeWord 0x200C0000#32 = .ok .brk ∧
  decodeWord 0x200D0000#32 = .ok .syscall ∧
  decodeWord 0x200E0000#32 = .ok .rfe ∧
  decodeWord 0x331E1234#32 = .error .loadHighSource

/-- Every step keeps the machine's invariant.  Basis: derived, 10_state.md section 2 (rule 32) and
section 6; 20_memory.md section 1 (rules 63, 66).  If memory is in canonical form, holds whole
words only where the map has storage, and the entry of $0 is zero, then the same holds after every
step that gives a next state. -/
def Obligations.StepKeepsInvariant : Prop :=
  ∀ s t : State, Inv s → step s = .next t → Inv t

/-- The invariant holds after reset, on every platform and for every power-on value.  Basis: derived,
10_state.md section 7.  Inv holds of the power-on state for every platform and every value of the
unspecified registers, so of State.reset. -/
def Obligations.PowerOnInvariant : Prop :=
  (∀ (p : Platform) (u : PowerOn), Inv (State.powerOn p u)) ∧ Inv State.reset

/-- After reset KU is RESET_KU, IE RESET_IE, $0 reads 0, pc is RESET_PC, nothing is in memory; the
rest is any value.  Basis: derived, 10_state.md section 7 (decision D25); 70_reset_and_hazards.md
section 1.  For every platform and every choice u of the values the spec leaves unspecified, the
power-on state has KU and IE as the platform's RESET_KU and RESET_IE, $0 zero, pc its RESET_PC, no
memory byte, and $1 to $ra, OKU, OIE, IMASK, $estat, $evec, $ear, $esp, $ers, $ptable, $rbase and
the interrupt lines are those of u; $evec counts as not written (R274; log entry 33). State.reset
is one such state, with KU 1 and IE 0 (D25), and no interrupt is taken in its first step (its
other values are the model's: log entries 1 to 6, 28). -/
def Obligations.PowerOnState : Prop :=
  (∀ (p : Platform) (u : PowerOn),
    (State.powerOn p u).ku = p.resetKu ∧ (State.powerOn p u).ie = p.resetIe ∧
    (State.powerOn p u).reg 0#4 = 0#32 ∧ (State.powerOn p u).pc = p.resetPc ∧
    (State.powerOn p u).platform = p ∧ (∀ c, (State.powerOn p u).mem.read? c = none) ∧
    (∀ k : Fin 15, (State.powerOn p u).reg (BitVec.ofNat 4 (k.val + 1)) = u.general.get k) ∧
    (State.powerOn p u).oku = u.oku ∧ (State.powerOn p u).oie = u.oie ∧
    (State.powerOn p u).imask = u.imask ∧ (State.powerOn p u).estat = u.estat ∧
    (State.powerOn p u).evec = u.evec ∧ (State.powerOn p u).ear = u.ear ∧
    (State.powerOn p u).esp = u.esp ∧ (State.powerOn p u).ers = u.ers ∧
    (State.powerOn p u).ptable = u.ptable ∧ (State.powerOn p u).rbase = u.rbase ∧
    (State.powerOn p u).irq = u.irq ∧ (State.powerOn p u).evecWritten = false) ∧
  (∃ p u, State.reset = State.powerOn p u) ∧
  State.reset.ku = true ∧ State.reset.ie = false ∧ NoInterrupt State.reset

/-- On all ram exec of every well-formed instruction answers a next state (or the refusal of R274); at
0xFFFFF under PC_WRAP refuse only jumps do.  Basis: derived, 00_scope.md section 3 (rule 7);
00_scope.md section 4 (the execution step); 60_exceptions.md section 2; 20_memory.md section 2;
10_state.md section 2 (rule 37, decision D5); 60_exceptions.md section 3 (rule 274).  On a map
that is ram everywhere, with PC_WRAP wrap, EA_HIGH_BITS ignore and DIV_MIN_NEG1 wrap (their
decided values), and where exception entry has a target ($evec written since reset, R274; log
entry 33), exec of every instruction well formed under the platform's layout answers some next
state; where entry has no target, it does so or is refused for that reason alone. (It says so of
exec; a step can still stop before exec, at its fetch, its decoding or its mode check.) On any
map, with PC_WRAP refuse and EAR_VALUE next, at 0xFFFFF only j, jr, beqz, bnez and rfe answer a
next state: the others need the address of a next instruction, which is not there (that an
exception needs it even under an EXC_ENTRY that does not save it is the model's choice, log entry
18). -/
def Obligations.WellFormedNeverStops : Prop :=
  (∀ (i : Instr) (s : State), (∀ a, s.platform.memMap.kindAt a = .ram) →
    s.platform.pcWrap = .wrap → s.platform.eaHighBits = .ignore → s.platform.divMinNeg1 = .wrap →
    i.wellFormedIn s.platform.spr = true →
    (HasTarget s → ∃ t, exec i s = .next t) ∧
    (¬ HasTarget s → (∃ t, exec i s = .next t) ∨ exec i s = .refused .handlerUnset)) ∧
  (∀ (i : Instr) (s : State), s.platform.pcWrap = .refuse → s.platform.earValue = .next →
    s.pc = 0xFFFFF#20 →
    (∃ a, i = .j a) ∨ (∃ rs, i = .jr rs) ∨ (∃ rs off, i = .beqz rs off ∨ i = .bnez rs off) ∨
      i = .rfe ∨ ∀ t, exec i s ≠ .next t)

/-- No step writes more than one general register; exception entry and rfe write none.  Basis:
derived, 10_state.md section 2 (rule 36); 10_state.md section 4 (rule 45); 60_exceptions.md
sections 3 and 4 (rules 270, 275).  For every step that gives a next state there is one register
outside which all general registers are as before, and $0 reads 0. Exception entry, with any cause
and return address from any state, and the return from it change no general register; so no
general register changes in a step that takes an interrupt, that executes break, syscall or rfe,
or (where EXC_RD is unchanged) that changes $estat. That entry and return leave $13 and $ers alone
is the spec's choice against reports of the real chip (log entry 25). -/
def Obligations.OneGeneralRegisterAtMost : Prop :=
  (∀ s t : State, step s = .next t →
    (∃ rd, SameRegsBut rd s t) ∧ t.reg 0#4 = 0#32 ∧
    (¬ NoInterrupt s ∨
      (∃ w, WordAtPc w s ∧
        (s.decode w = .ok .brk ∨ s.decode w = .ok .syscall ∨ s.decode w = .ok .rfe)) ∨
      (s.platform.excRd = .unchanged ∧ t.estat ≠ s.estat) → SameRegs s t)) ∧
  (∀ (s : State) (cause : Word) (ret : Addr),
    SameRegs s (s.enter cause ret) ∧ SameRegs s s.returnFrom)

/-- Only sw changes memory, only the word it addresses, and only in ram.  Basis: derived,
44_memory_instructions.md section 3; 20_memory.md section 1 (rule 66).  For every step that gives
a next state: every memory byte reads as before, or the word at pc decodes to an sw whose access
address is ram and every byte outside that word reads as before. -/
def Obligations.MemoryChangesOnlyBySw : Prop :=
  ∀ s t : State, step s = .next t →
    SameMemory s t ∨
    ∃ w rd rs off, WordAtPc w s ∧ s.decode w = .ok (.sw rd rs off) ∧
      s.platform.memMap.kindAt (accessAddress (s.reg rs) off) = .ram ∧
      SameMemoryBut (accessAddress (s.reg rs) off) s t

/-- $evec, $esp, $ers, $ptable, $rbase and IMASK change only by movgs.  Basis: derived, 10_state.md
section 4 (rules 41, 44, 45).  For every step that gives a next state: either these are as before,
or no interrupt was taken and the word at pc decodes to a movgs. So it is with the note that $evec
has been written (log entry 33). -/
def Obligations.HandlerRegistersChangeOnlyByMovgs : Prop :=
  ∀ s t : State, step s = .next t →
    SameHandlerRegs s t ∨
    ∃ w n rs, NoInterrupt s ∧ WordAtPc w s ∧ s.decode w = .ok (.movgs n rs)

/-- $estat changes only at an entry, and then holds one cause bit or pending lines.  Basis: derived,
60_exceptions.md section 3 (rule 273); 10_state.md section 4 (rule 43); 60_exceptions.md section 5
(rule 285); 60_exceptions.md section 6 (rules 291, 292); 30_encoding.md section 4 (rule 112);
60_exceptions.md section 3 (rule 274).  Under the default profile and the decided entry, for every
step that gives a next state: $estat is as before, or the step is an exception entry that put a
legal cause word into it: exactly one of bits 15 to 12, or at least one of bits 11:4 and nothing
else; bit 12 only under RESERVED_POLICY gpf or USER_MODE_POLICY gpf (R292; log entries 5, 6, 29).
With EXC_RD unchanged the entry changes nothing else. No entry happens where $evec has not been
written since reset (R274; log entry 33). -/
def Obligations.CauseChangesOnlyAtEntry : Prop :=
  ∀ s t : State, DecidedEntry s → s.platform.spr = SprLayout.profile → step s = .next t →
    t.estat = s.estat ∨
    (LegalCause t.estat ∧ HasTarget s ∧
      (t.estat = 0x1000#32 → s.platform.reserved = .gpf ∨ s.platform.userMode = .gpf) ∧
      ∃ ret, EntryWrites t.estat ret (withLines s) t ∧
        (s.platform.excRd = .unchanged → Entered t.estat ret (withLines s) t))

/-- User mode is left only by exception entry.  Basis: derived, 60_exceptions.md section 6 (rules 290,
291).  Under refuse and gpf: if a step that starts with KU = 0 ends with KU = 1, it is an
exception entry that saved KU = 0. (Under unrestricted, user mode may write KU itself with movgs,
as the policy says.) DecidedEntry: the entry parameters at their decided values, KU = 1 kernel
among them (D18 to D22; log entries 12, 13). -/
def Obligations.UserModeLeftOnlyByEntry : Prop :=
  ∀ s t : State, DecidedEntry s → step s = .next t → s.platform.userMode ≠ .unrestricted →
    s.ku = false → t.ku = true → ∃ cause ret, EntryWrites cause ret (withLines s) t

/-- Kernel mode is left only by rfe with OKU = 0 or a movgs that clears bit 3 of $cctrl.  Basis:
derived, 60_exceptions.md section 6 (rule 290).  If a step that starts with KU = 1 ends with KU =
0, the word at pc decodes to rfe and OKU was 0, or to a movgs to special register 4 of a value
whose bit 3 is 0. Under the default profile and the decided entry (D16 to D22; log entries 12,
13). -/
def Obligations.KernelModeLeftOnlyByRfeOrMovgs : Prop :=
  ∀ s t : State, DecidedEntry s → s.platform.spr = SprLayout.profile → step s = .next t →
    s.ku = true → t.ku = false →
    ∃ w, WordAtPc w s ∧
      ((s.decode w = .ok .rfe ∧ s.oku = false) ∨
        ∃ rs, s.decode w = .ok (.movgs 4#4 rs) ∧ (s.reg rs).getLsbD 3 = false)

/-- No step clears an interrupt line, takes more than one value of the feed or makes more than one
device access.  Basis: derived, 60_exceptions.md section 5 (rules 280, 283); 20_memory.md section
1 (rules 66, 67); 00_scope.md section 5.  For every step that gives a next state the lines are
those the environment drove for this step, the feed has lost its first value only, the platform is
unchanged, the counter of free values grew by at most one, and the log of device accesses by at
most one access. The feed, the counter and the log are the model's own forms (log entries 11, 9,
10) of the environment's input and of the draws and accesses of rules 66 and 67. -/
def Obligations.LinesAreTheEnvironments : Prop :=
  ∀ s t : State, step s = .next t →
    SameOutside (withLines s) t ∧ s.draws ≤ t.draws ∧ t.draws ≤ s.draws + 1 ∧
    (t.deviceLog = s.deviceLog ∨ ∃ e, t.deviceLog = e :: s.deviceLog)
end

