-- ==== Sys2Proof/Laws/Memory.lean ====
section
/-! SUPPORT. The laws of memory: read after write, and that every operation keeps the canonical form. -/

namespace Sys2Proof.Machine

/-! ### One byte -/

@[simp] theorem Memory.read?_nil (a : Nat) : Memory.read? [] a = none := rfl

@[simp] theorem Memory.read?_write_self (m : Memory) (a : Nat) (v : Byte) :
    (m.write a v).read? a = some v := by
  induction m with
  | nil => simp [Memory.write, Memory.read?]
  | cons c rest ih =>
    obtain ⟨k, b⟩ := c
    by_cases h : a < k
    · simp [Memory.write, Memory.read?, h]
    · by_cases e : a = k
      · simp [Memory.write, Memory.read?, e]
      · simp [Memory.write, Memory.read?, h, e, Ne.symm e, ih]

theorem Memory.read?_write_other (m : Memory) {a c : Nat} (v : Byte) (hne : c ≠ a) :
    (m.write a v).read? c = m.read? c := by
  induction m with
  | nil => simp [Memory.write, Memory.read?, hne.symm]
  | cons d rest ih =>
    obtain ⟨k, b⟩ := d
    by_cases h : a < k
    · simp [Memory.write, Memory.read?, h, hne.symm]
    · by_cases e : a = k
      · subst e
        simp [Memory.write, Memory.read?, hne.symm]
      · simp only [Memory.write, if_neg h, if_neg e, Memory.read?, ih]

theorem Memory.mem_write {m : Memory} {a : Nat} {v : Byte} {c : Host.Cell} (h : c ∈ m.write a v) :
    c = (a, v) ∨ c ∈ m := by
  induction m with
  | nil => exact .inl (by simpa [Memory.write] using h)
  | cons d rest ih =>
    obtain ⟨k, b⟩ := d
    simp only [Memory.write] at h
    split at h
    · simpa using h
    · split at h
      · rcases List.mem_cons.1 h with h | h
        · exact .inl h
        · exact .inr (List.mem_cons_of_mem _ h)
      · rcases List.mem_cons.1 h with h | h
        · exact .inr (h ▸ List.mem_cons_self)
        · exact (ih h).imp id (List.mem_cons_of_mem _)

theorem Memory.write_wf {m : Memory} {a : Nat} (v : Byte) (hm : m.wf) (ha : a < cellCount) :
    (m.write a v).wf := by
  refine ⟨?_, fun c hc => ?_⟩
  · obtain ⟨hp, -⟩ := hm
    induction m with
    | nil => simp [Memory.write]
    | cons d rest ih =>
      obtain ⟨k, b⟩ := d
      obtain ⟨hd, hr⟩ := List.pairwise_cons.1 hp
      simp only [Memory.write]
      split
      · rename_i h
        refine List.pairwise_cons.2 ⟨fun c hc => ?_, hp⟩
        rcases List.mem_cons.1 hc with rfl | hc
        · exact h
        · exact h.trans (hd c hc)
      · split
        · rename_i e
          subst e
          exact List.pairwise_cons.2 ⟨hd, hr⟩
        · refine List.pairwise_cons.2 ⟨fun c hc => ?_, ih hr⟩
          rcases Memory.mem_write hc with rfl | hc
          · simp only; omega
          · exact hd c hc
  · rcases Memory.mem_write hc with rfl | hc
    · exact ha
    · exact hm.2 c hc

theorem Memory.wf_nil : Memory.wf [] := by simp [Memory.wf]

/-! ### The four cells of a word -/

theorem cellOf_lt (a : Addr) {k : Nat} (hk : k < 4) : cellOf a k < cellCount := by
  have := a.isLt
  simp only [cellOf, cellCount]
  omega

theorem cellOf_inj {a b : Addr} {j k : Nat} (hj : j < 4) (hk : k < 4) :
    cellOf a j = cellOf b k ↔ a = b ∧ j = k := by
  constructor
  · intro h
    simp only [cellOf] at h
    exact ⟨BitVec.eq_of_toNat_eq (by omega), by omega⟩
  · rintro ⟨rfl, rfl⟩
    rfl

/-- Every cell of the address space is a cell of exactly one word. -/
theorem exists_cellOf {c : Nat} (hc : c < cellCount) : ∃ (a : Addr) (k : Nat), k < 4 ∧ c = cellOf a k := by
  refine ⟨BitVec.ofNat 20 (c / 4), c % 4, by omega, ?_⟩
  simp only [cellOf, cellCount, BitVec.toNat_ofNat] at *
  omega

@[simp] theorem wordOfBytes_byteOf (v : Word) :
    wordOfBytes (byteOf v 0) (byteOf v 1) (byteOf v 2) (byteOf v 3) = v := by
  refine BitVec.eq_of_getLsbD_eq fun i hi => ?_
  simp only [wordOfBytes, byteOf, BitVec.getLsbD_append, BitVec.getLsbD_extractLsb']
  split
  · simp [*]
  · split
    · simp only [*, decide_true, Bool.true_and]; congr 1; omega
    · split
      · simp only [*, decide_true, Bool.true_and]; congr 1; omega
      · simp only [show i - 8 - 8 - 8 < 8 by omega, decide_true, Bool.true_and]; congr 1; omega

@[simp] theorem byteOf_wordOfBytes_zero (b0 b1 b2 b3 : Byte) :
    byteOf (wordOfBytes b0 b1 b2 b3) 0 = b0 := by
  refine BitVec.eq_of_getLsbD_eq fun i hi => ?_
  simp only [wordOfBytes, byteOf, BitVec.getLsbD_append, BitVec.getLsbD_extractLsb']
  interval_cases i <;> rfl

@[simp] theorem byteOf_wordOfBytes_one (b0 b1 b2 b3 : Byte) :
    byteOf (wordOfBytes b0 b1 b2 b3) 1 = b1 := by
  refine BitVec.eq_of_getLsbD_eq fun i hi => ?_
  simp only [wordOfBytes, byteOf, BitVec.getLsbD_append, BitVec.getLsbD_extractLsb']
  interval_cases i <;> rfl

@[simp] theorem byteOf_wordOfBytes_two (b0 b1 b2 b3 : Byte) :
    byteOf (wordOfBytes b0 b1 b2 b3) 2 = b2 := by
  refine BitVec.eq_of_getLsbD_eq fun i hi => ?_
  simp only [wordOfBytes, byteOf, BitVec.getLsbD_append, BitVec.getLsbD_extractLsb']
  interval_cases i <;> rfl

@[simp] theorem byteOf_wordOfBytes_three (b0 b1 b2 b3 : Byte) :
    byteOf (wordOfBytes b0 b1 b2 b3) 3 = b3 := by
  refine BitVec.eq_of_getLsbD_eq fun i hi => ?_
  simp only [wordOfBytes, byteOf, BitVec.getLsbD_append, BitVec.getLsbD_extractLsb']
  interval_cases i <;> rfl

/-! ### One word -/

theorem Memory.read?_writeWord (m : Memory) (a : Addr) (v : Word) {k : Nat} (hk : k < 4) :
    (m.writeWord a v).read? (cellOf a k) = some (byteOf v k) := by
  have ne : ∀ {i j : Nat}, i ≠ j → cellOf a i ≠ cellOf a j := fun h e => h (by
    simp only [cellOf] at e; omega)
  interval_cases k <;>
    simp [Memory.writeWord, Memory.read?_write_other, ne]

theorem Memory.read?_writeWord_outside (m : Memory) {a : Addr} (v : Word) {c : Nat}
    (hc : ∀ k < 4, c ≠ cellOf a k) : (m.writeWord a v).read? c = m.read? c := by
  simp [Memory.writeWord, Memory.read?_write_other, hc]

theorem Memory.read?_writeWord_other (m : Memory) {a b : Addr} (v : Word) (hne : b ≠ a) {k : Nat}
    (hk : k < 4) : (m.writeWord a v).read? (cellOf b k) = m.read? (cellOf b k) :=
  m.read?_writeWord_outside v fun _ hj e => hne ((cellOf_inj hk hj).1 e).1

@[simp] theorem Memory.word?_writeWord_self (m : Memory) (a : Addr) (v : Word) :
    (m.writeWord a v).word? a = some v := by
  simp [Memory.word?, m.read?_writeWord a v]

theorem Memory.word?_writeWord_other (m : Memory) {a b : Addr} (v : Word) (hne : b ≠ a) :
    (m.writeWord a v).word? b = m.word? b := by
  simp [Memory.word?, m.read?_writeWord_other v hne]

/-- A word that has been stored is the word a load reads. -/
theorem Memory.word_of_word? {m : Memory} {a : Addr} {w : Word} (h : m.word? a = some w) :
    m.word a = w := by
  simp only [Memory.word?] at h
  split at h
  · rename_i h0 h1 h2 h3
    simp only [Memory.word, Memory.cell, h0, h1, h2, h3, Option.getD_some]
    exact Option.some.inj h
  · cases h

@[simp] theorem Memory.word_writeWord_self (m : Memory) (a : Addr) (v : Word) :
    (m.writeWord a v).word a = v :=
  Memory.word_of_word? (m.word?_writeWord_self a v)

theorem Memory.word_writeWord_other (m : Memory) {a b : Addr} (v : Word) (hne : b ≠ a) :
    (m.writeWord a v).word b = m.word b := by
  simp [Memory.word, Memory.cell, m.read?_writeWord_other v hne]

/-- A store keeps memory in its canonical form. -/
theorem Memory.writeWord_wf {m : Memory} (a : Addr) (v : Word) (hm : m.wf) : (m.writeWord a v).wf :=
  Memory.write_wf _ (Memory.write_wf _ (Memory.write_wf _ (Memory.write_wf _ hm
    (cellOf_lt a (by decide))) (cellOf_lt a (by decide))) (cellOf_lt a (by decide)))
    (cellOf_lt a (by decide))

/-! ### The memory map -/

/-- An address no region holds has the kind of the rest. -/
theorem MemMap.kindAt_elsewhere {m : MemMap} {a : Addr}
    (h : ∀ r ∈ m.regions, r.contains a = false) : m.kindAt a = m.elsewhere := by
  have : m.regions.find? (fun r => r.contains a) = none := by
    simpa [List.find?_eq_none] using h
  simp [MemMap.kindAt, this]

end Sys2Proof.Machine
end

