-- ==== Sys2Proof/Laws/Decode.lean ====
section
/-! SUPPORT. The fields of a word built in each format, and a word built again from its fields. -/

namespace Sys2Proof

variable (op rd rs func rt : BitVec 4) (imm : Imm) (addr : Addr) (w : Word)

/-! ### The fields of the three formats (spec/30_encoding.md R91, R92) -/

@[simp] theorem opOf_encodeR : opOf (encodeR op rd rs func rt) = op := by
  refine BitVec.eq_of_getLsbD_eq fun i hi => ?_
  simp only [opOf, encodeR, BitVec.getLsbD_append, BitVec.getLsbD_extractLsb']
  interval_cases i <;> rfl

@[simp] theorem rdOf_encodeR : rdOf (encodeR op rd rs func rt) = rd := by
  refine BitVec.eq_of_getLsbD_eq fun i hi => ?_
  simp only [rdOf, encodeR, BitVec.getLsbD_append, BitVec.getLsbD_extractLsb']
  interval_cases i <;> rfl

@[simp] theorem rsOf_encodeR : rsOf (encodeR op rd rs func rt) = rs := by
  refine BitVec.eq_of_getLsbD_eq fun i hi => ?_
  simp only [rsOf, encodeR, BitVec.getLsbD_append, BitVec.getLsbD_extractLsb']
  interval_cases i <;> rfl

@[simp] theorem funcOf_encodeR : funcOf (encodeR op rd rs func rt) = func := by
  refine BitVec.eq_of_getLsbD_eq fun i hi => ?_
  simp only [funcOf, encodeR, BitVec.getLsbD_append, BitVec.getLsbD_extractLsb']
  interval_cases i <;> rfl

@[simp] theorem zerosOf_encodeR : zerosOf (encodeR op rd rs func rt) = 0#12 := by
  refine BitVec.eq_of_getLsbD_eq fun i hi => ?_
  simp only [zerosOf, encodeR, BitVec.getLsbD_append, BitVec.getLsbD_extractLsb']
  interval_cases i <;> rfl

@[simp] theorem rtOf_encodeR : rtOf (encodeR op rd rs func rt) = rt := by
  refine BitVec.eq_of_getLsbD_eq fun i hi => ?_
  simp only [rtOf, encodeR, BitVec.getLsbD_append, BitVec.getLsbD_extractLsb']
  interval_cases i <;> rfl

@[simp] theorem immOf_encodeR : immOf (encodeR op rd rs func rt) = 0#12 ++ rt := by
  refine BitVec.eq_of_getLsbD_eq fun i hi => ?_
  simp only [immOf, encodeR, BitVec.getLsbD_append, BitVec.getLsbD_extractLsb']
  interval_cases i <;> rfl

@[simp] theorem opOf_encodeI : opOf (encodeI op rd rs func imm) = op := by
  refine BitVec.eq_of_getLsbD_eq fun i hi => ?_
  simp only [opOf, encodeI, BitVec.getLsbD_append, BitVec.getLsbD_extractLsb']
  interval_cases i <;> rfl

@[simp] theorem rdOf_encodeI : rdOf (encodeI op rd rs func imm) = rd := by
  refine BitVec.eq_of_getLsbD_eq fun i hi => ?_
  simp only [rdOf, encodeI, BitVec.getLsbD_append, BitVec.getLsbD_extractLsb']
  interval_cases i <;> rfl

@[simp] theorem rsOf_encodeI : rsOf (encodeI op rd rs func imm) = rs := by
  refine BitVec.eq_of_getLsbD_eq fun i hi => ?_
  simp only [rsOf, encodeI, BitVec.getLsbD_append, BitVec.getLsbD_extractLsb']
  interval_cases i <;> rfl

@[simp] theorem funcOf_encodeI : funcOf (encodeI op rd rs func imm) = func := by
  refine BitVec.eq_of_getLsbD_eq fun i hi => ?_
  simp only [funcOf, encodeI, BitVec.getLsbD_append, BitVec.getLsbD_extractLsb']
  interval_cases i <;> rfl

@[simp] theorem immOf_encodeI : immOf (encodeI op rd rs func imm) = imm := by
  refine BitVec.eq_of_getLsbD_eq fun i hi => ?_
  simp only [immOf, encodeI, BitVec.getLsbD_append, BitVec.getLsbD_extractLsb']
  interval_cases i <;> rfl

@[simp] theorem opOf_encodeJ : opOf (encodeJ op rd rs addr) = op := by
  refine BitVec.eq_of_getLsbD_eq fun i hi => ?_
  simp only [opOf, encodeJ, BitVec.getLsbD_append, BitVec.getLsbD_extractLsb']
  interval_cases i <;> rfl

@[simp] theorem rdOf_encodeJ : rdOf (encodeJ op rd rs addr) = rd := by
  refine BitVec.eq_of_getLsbD_eq fun i hi => ?_
  simp only [rdOf, encodeJ, BitVec.getLsbD_append, BitVec.getLsbD_extractLsb']
  interval_cases i <;> rfl

@[simp] theorem rsOf_encodeJ : rsOf (encodeJ op rd rs addr) = rs := by
  refine BitVec.eq_of_getLsbD_eq fun i hi => ?_
  simp only [rsOf, encodeJ, BitVec.getLsbD_append, BitVec.getLsbD_extractLsb']
  interval_cases i <;> rfl

@[simp] theorem addrOf_encodeJ : addrOf (encodeJ op rd rs addr) = addr := by
  refine BitVec.eq_of_getLsbD_eq fun i hi => ?_
  simp only [addrOf, encodeJ, BitVec.getLsbD_append, BitVec.getLsbD_extractLsb']
  interval_cases i <;> rfl

/-! ### A word from its fields -/

theorem encodeI_fields : encodeI (opOf w) (rdOf w) (rsOf w) (funcOf w) (immOf w) = w := by
  refine BitVec.eq_of_getLsbD_eq fun i hi => ?_
  simp only [opOf, rdOf, rsOf, funcOf, immOf, encodeI, BitVec.getLsbD_append,
    BitVec.getLsbD_extractLsb']
  interval_cases i <;> simp

theorem encodeJ_fields : encodeJ (opOf w) (rdOf w) (rsOf w) (addrOf w) = w := by
  refine BitVec.eq_of_getLsbD_eq fun i hi => ?_
  simp only [opOf, rdOf, rsOf, addrOf, encodeJ, BitVec.getLsbD_append, BitVec.getLsbD_extractLsb']
  interval_cases i <;> simp

/-- The immediate field is the twelve zero bits and `rt` of the R-type format. -/
theorem immOf_eq : immOf w = zerosOf w ++ rtOf w := by
  refine BitVec.eq_of_getLsbD_eq fun i hi => ?_
  simp only [immOf, zerosOf, rtOf, BitVec.getLsbD_append, BitVec.getLsbD_extractLsb']
  interval_cases i <;> simp

theorem encodeR_eq_encodeI : encodeR op rd rs func rt = encodeI op rd rs func (0#12 ++ rt) := by
  refine BitVec.eq_of_getLsbD_eq fun i hi => ?_
  simp only [encodeR, encodeI, BitVec.getLsbD_append]
  interval_cases i <;> rfl

theorem encodeR_fields (h : zerosOf w = 0#12) :
    encodeR (opOf w) (rdOf w) (rsOf w) (funcOf w) (rtOf w) = w := by
  rw [encodeR_eq_encodeI, ← h, ← immOf_eq, encodeI_fields]

/-! ### Fields under a mask -/

theorem opOf_and (m : Word) : opOf (w &&& m) = opOf w &&& opOf m := by
  simp [opOf, BitVec.extractLsb'_and]

theorem rdOf_and (m : Word) : rdOf (w &&& m) = rdOf w &&& rdOf m := by
  simp [rdOf, BitVec.extractLsb'_and]

theorem rsOf_and (m : Word) : rsOf (w &&& m) = rsOf w &&& rsOf m := by
  simp [rsOf, BitVec.extractLsb'_and]

theorem funcOf_and (m : Word) : funcOf (w &&& m) = funcOf w &&& funcOf m := by
  simp [funcOf, BitVec.extractLsb'_and]

theorem zerosOf_and (m : Word) : zerosOf (w &&& m) = zerosOf w &&& zerosOf m := by
  simp [zerosOf, BitVec.extractLsb'_and]

theorem immOf_and (m : Word) : immOf (w &&& m) = immOf w &&& immOf m := by
  simp [immOf, BitVec.extractLsb'_and]

theorem addrOf_and (m : Word) : addrOf (w &&& m) = addrOf w &&& addrOf m := by
  simp [addrOf, BitVec.extractLsb'_and]

/-! ### Decoding under the policies (spec/30_encoding.md R108, R109) -/

/-- A word of an instruction is that instruction under every policy. -/
theorem decodeUnder_of_ok {w : Word} {i : Instr} (h : decodeWord w = .ok i) (mbz : MbzPolicy)
    (lhiRsIgnored : Bool) : decodeUnder mbz lhiRsIgnored w = .ok i := by
  simp [decodeUnder, h]

/-- Where an error stands, every constant field is checked or no field is at fault. -/
theorem decodeUnder_of_checked {w : Word} {e : DecodeError} {mbz : MbzPolicy} {lhiRsIgnored : Bool}
    (h : decodeWord w = .error e) (hu : e.unchecked mbz lhiRsIgnored = false) :
    decodeUnder mbz lhiRsIgnored w = .error e := by
  simp [decodeUnder, h, hu]

/-- A word whose one fault is a field that is not checked decodes as with that field zero. -/
theorem decodeUnder_of_unchecked {w : Word} {e : DecodeError} {mbz : MbzPolicy} {lhiRsIgnored : Bool}
    (h : decodeWord w = .error e) (hu : e.unchecked mbz lhiRsIgnored = true) :
    decodeUnder mbz lhiRsIgnored w = decodeWord (w &&& ~~~e.constantField) := by
  simp [decodeUnder, h, hu]

/-- Under the decided policies decoding is that of R93. -/
@[simp] theorem decodeUnder_strict (w : Word) : decodeUnder .strict false w = decodeWord w := by
  cases h : decodeWord w with
  | ok i => exact decodeUnder_of_ok h _ _
  | error e => exact decodeUnder_of_checked h (by cases e <;> rfl)

/-! ### Decoding a run of bytes -/

/-- The four bytes of a word in front of a run decode as the word does. -/
theorem decode_bytesOfWord (rest : List Byte) :
    decode (Machine.bytesOfWord w ++ rest) = (decodeWord w).map fun i => (i, rest) := by
  simp only [Machine.bytesOfWord, List.cons_append, List.nil_append, decode,
    Machine.wordOfBytes_byteOf]
  cases decodeWord w <;> rfl

theorem decodeTableWord_of_word : decodeTableWord 32 w.toNat = (decodeWord w).toOption := by
  have h : BitVec.ofNat 32 (w.toNat % 2 ^ 32) = w := by
    rw [Nat.mod_eq_of_lt w.isLt, BitVec.ofNat_toNat, BitVec.setWidth_eq]
  have d := decode_bytesOfWord w []
  simp only [List.append_nil] at d
  simp only [decodeTableWord, h, d]
  cases decodeWord w <;> rfl

end Sys2Proof
end

