-- ==== Sys2Proof/Laws/State.lean ====
section
/-! SUPPORT. What each update of the state does to each field: one lemma per field per update.  The
composed updates (`advance`, `retire`, `raise`, `interrupt`, `link`) rewrite to these. -/

namespace Sys2Proof.Machine

variable (s : State)

@[simp] theorem State.advance_eq : s.advance = s.setPc (s.pc + 1#20) := rfl

@[simp] theorem State.npc_eq : s.npc = s.pc + 1#20 := rfl

@[simp] theorem State.retire_eq (rd : Reg) (v : Word) :
    s.retire rd v = (s.setReg rd v).setPc (s.pc + 1#20) := rfl

@[simp] theorem State.raise_eq (c : Cause) :
    s.raise c = s.enter (causeWord s.platform.causes c) s.returnAddress := rfl

@[simp] theorem State.interrupt_eq :
    s.interrupt = s.enter (interruptWord s.platform.causes s.pending) s.pc := rfl

@[simp] theorem State.link_eq (t : Addr) :
    s.link t = (s.setReg 15#4 (wordOfAddr (s.pc + 1#20))).setPc t := rfl

@[simp] theorem State.setReg_regs (r : Reg) (v : Word) : (s.setReg r v).regs = writeFile s.regs r v := rfl
@[simp] theorem State.setReg_pc (r : Reg) (v : Word) : (s.setReg r v).pc = s.pc := rfl
@[simp] theorem State.setReg_ie (r : Reg) (v : Word) : (s.setReg r v).ie = s.ie := rfl
@[simp] theorem State.setReg_ku (r : Reg) (v : Word) : (s.setReg r v).ku = s.ku := rfl
@[simp] theorem State.setReg_oie (r : Reg) (v : Word) : (s.setReg r v).oie = s.oie := rfl
@[simp] theorem State.setReg_oku (r : Reg) (v : Word) : (s.setReg r v).oku = s.oku := rfl
@[simp] theorem State.setReg_imask (r : Reg) (v : Word) : (s.setReg r v).imask = s.imask := rfl
@[simp] theorem State.setReg_estat (r : Reg) (v : Word) : (s.setReg r v).estat = s.estat := rfl
@[simp] theorem State.setReg_evec (r : Reg) (v : Word) : (s.setReg r v).evec = s.evec := rfl
@[simp] theorem State.setReg_ear (r : Reg) (v : Word) : (s.setReg r v).ear = s.ear := rfl
@[simp] theorem State.setReg_esp (r : Reg) (v : Word) : (s.setReg r v).esp = s.esp := rfl
@[simp] theorem State.setReg_ers (r : Reg) (v : Word) : (s.setReg r v).ers = s.ers := rfl
@[simp] theorem State.setReg_ptable (r : Reg) (v : Word) : (s.setReg r v).ptable = s.ptable := rfl
@[simp] theorem State.setReg_rbase (r : Reg) (v : Word) : (s.setReg r v).rbase = s.rbase := rfl
@[simp] theorem State.setReg_mem (r : Reg) (v : Word) : (s.setReg r v).mem = s.mem := rfl
@[simp] theorem State.setReg_irq (r : Reg) (v : Word) : (s.setReg r v).irq = s.irq := rfl
@[simp] theorem State.setReg_lineFeed (r : Reg) (v : Word) : (s.setReg r v).lineFeed = s.lineFeed := rfl
@[simp] theorem State.setReg_draws (r : Reg) (v : Word) : (s.setReg r v).draws = s.draws := rfl
@[simp] theorem State.setReg_deviceLog (r : Reg) (v : Word) : (s.setReg r v).deviceLog = s.deviceLog := rfl
@[simp] theorem State.setReg_stored (r : Reg) (v : Word) : (s.setReg r v).stored = s.stored := rfl
@[simp] theorem State.setReg_evecWritten (r : Reg) (v : Word) : (s.setReg r v).evecWritten = s.evecWritten := rfl
@[simp] theorem State.setReg_platform (r : Reg) (v : Word) : (s.setReg r v).platform = s.platform := rfl

@[simp] theorem State.setPc_regs (t : Addr) : (s.setPc t).regs = s.regs := rfl
@[simp] theorem State.setPc_pc (t : Addr) : (s.setPc t).pc = t := rfl
@[simp] theorem State.setPc_ie (t : Addr) : (s.setPc t).ie = s.ie := rfl
@[simp] theorem State.setPc_ku (t : Addr) : (s.setPc t).ku = s.ku := rfl
@[simp] theorem State.setPc_oie (t : Addr) : (s.setPc t).oie = s.oie := rfl
@[simp] theorem State.setPc_oku (t : Addr) : (s.setPc t).oku = s.oku := rfl
@[simp] theorem State.setPc_imask (t : Addr) : (s.setPc t).imask = s.imask := rfl
@[simp] theorem State.setPc_estat (t : Addr) : (s.setPc t).estat = s.estat := rfl
@[simp] theorem State.setPc_evec (t : Addr) : (s.setPc t).evec = s.evec := rfl
@[simp] theorem State.setPc_ear (t : Addr) : (s.setPc t).ear = s.ear := rfl
@[simp] theorem State.setPc_esp (t : Addr) : (s.setPc t).esp = s.esp := rfl
@[simp] theorem State.setPc_ers (t : Addr) : (s.setPc t).ers = s.ers := rfl
@[simp] theorem State.setPc_ptable (t : Addr) : (s.setPc t).ptable = s.ptable := rfl
@[simp] theorem State.setPc_rbase (t : Addr) : (s.setPc t).rbase = s.rbase := rfl
@[simp] theorem State.setPc_mem (t : Addr) : (s.setPc t).mem = s.mem := rfl
@[simp] theorem State.setPc_irq (t : Addr) : (s.setPc t).irq = s.irq := rfl
@[simp] theorem State.setPc_lineFeed (t : Addr) : (s.setPc t).lineFeed = s.lineFeed := rfl
@[simp] theorem State.setPc_draws (t : Addr) : (s.setPc t).draws = s.draws := rfl
@[simp] theorem State.setPc_deviceLog (t : Addr) : (s.setPc t).deviceLog = s.deviceLog := rfl
@[simp] theorem State.setPc_stored (t : Addr) : (s.setPc t).stored = s.stored := rfl
@[simp] theorem State.setPc_evecWritten (t : Addr) : (s.setPc t).evecWritten = s.evecWritten := rfl
@[simp] theorem State.setPc_platform (t : Addr) : (s.setPc t).platform = s.platform := rfl

@[simp] theorem State.returnFrom_regs : (s.returnFrom).regs = s.regs := rfl
@[simp] theorem State.returnFrom_pc : (s.returnFrom).pc = addrOfWord s.ear := rfl
@[simp] theorem State.returnFrom_ie : (s.returnFrom).ie = s.oie := rfl
@[simp] theorem State.returnFrom_ku : (s.returnFrom).ku = s.oku := rfl
@[simp] theorem State.returnFrom_oie : (s.returnFrom).oie = s.oie := rfl
@[simp] theorem State.returnFrom_oku : (s.returnFrom).oku = s.oku := rfl
@[simp] theorem State.returnFrom_imask : (s.returnFrom).imask = s.imask := rfl
@[simp] theorem State.returnFrom_estat : (s.returnFrom).estat = s.estat := rfl
@[simp] theorem State.returnFrom_evec : (s.returnFrom).evec = s.evec := rfl
@[simp] theorem State.returnFrom_ear : (s.returnFrom).ear = s.ear := rfl
@[simp] theorem State.returnFrom_esp : (s.returnFrom).esp = s.esp := rfl
@[simp] theorem State.returnFrom_ers : (s.returnFrom).ers = s.ers := rfl
@[simp] theorem State.returnFrom_ptable : (s.returnFrom).ptable = s.ptable := rfl
@[simp] theorem State.returnFrom_rbase : (s.returnFrom).rbase = s.rbase := rfl
@[simp] theorem State.returnFrom_mem : (s.returnFrom).mem = s.mem := rfl
@[simp] theorem State.returnFrom_irq : (s.returnFrom).irq = s.irq := rfl
@[simp] theorem State.returnFrom_lineFeed : (s.returnFrom).lineFeed = s.lineFeed := rfl
@[simp] theorem State.returnFrom_draws : (s.returnFrom).draws = s.draws := rfl
@[simp] theorem State.returnFrom_deviceLog : (s.returnFrom).deviceLog = s.deviceLog := rfl
@[simp] theorem State.returnFrom_stored : (s.returnFrom).stored = s.stored := rfl
@[simp] theorem State.returnFrom_evecWritten : (s.returnFrom).evecWritten = s.evecWritten := rfl
@[simp] theorem State.returnFrom_platform : (s.returnFrom).platform = s.platform := rfl

@[simp] theorem State.drawn_regs : (s.drawn).regs = s.regs := rfl
@[simp] theorem State.drawn_pc : (s.drawn).pc = s.pc := rfl
@[simp] theorem State.drawn_ie : (s.drawn).ie = s.ie := rfl
@[simp] theorem State.drawn_ku : (s.drawn).ku = s.ku := rfl
@[simp] theorem State.drawn_oie : (s.drawn).oie = s.oie := rfl
@[simp] theorem State.drawn_oku : (s.drawn).oku = s.oku := rfl
@[simp] theorem State.drawn_imask : (s.drawn).imask = s.imask := rfl
@[simp] theorem State.drawn_estat : (s.drawn).estat = s.estat := rfl
@[simp] theorem State.drawn_evec : (s.drawn).evec = s.evec := rfl
@[simp] theorem State.drawn_ear : (s.drawn).ear = s.ear := rfl
@[simp] theorem State.drawn_esp : (s.drawn).esp = s.esp := rfl
@[simp] theorem State.drawn_ers : (s.drawn).ers = s.ers := rfl
@[simp] theorem State.drawn_ptable : (s.drawn).ptable = s.ptable := rfl
@[simp] theorem State.drawn_rbase : (s.drawn).rbase = s.rbase := rfl
@[simp] theorem State.drawn_mem : (s.drawn).mem = s.mem := rfl
@[simp] theorem State.drawn_irq : (s.drawn).irq = s.irq := rfl
@[simp] theorem State.drawn_lineFeed : (s.drawn).lineFeed = s.lineFeed := rfl
@[simp] theorem State.drawn_draws : (s.drawn).draws = s.draws + 1 := rfl
@[simp] theorem State.drawn_deviceLog : (s.drawn).deviceLog = s.deviceLog := rfl
@[simp] theorem State.drawn_stored : (s.drawn).stored = s.stored := rfl
@[simp] theorem State.drawn_evecWritten : (s.drawn).evecWritten = s.evecWritten := rfl
@[simp] theorem State.drawn_platform : (s.drawn).platform = s.platform := rfl

@[simp] theorem State.logDevice_regs (e : DeviceAccess) : (s.logDevice e).regs = s.regs := rfl
@[simp] theorem State.logDevice_pc (e : DeviceAccess) : (s.logDevice e).pc = s.pc := rfl
@[simp] theorem State.logDevice_ie (e : DeviceAccess) : (s.logDevice e).ie = s.ie := rfl
@[simp] theorem State.logDevice_ku (e : DeviceAccess) : (s.logDevice e).ku = s.ku := rfl
@[simp] theorem State.logDevice_oie (e : DeviceAccess) : (s.logDevice e).oie = s.oie := rfl
@[simp] theorem State.logDevice_oku (e : DeviceAccess) : (s.logDevice e).oku = s.oku := rfl
@[simp] theorem State.logDevice_imask (e : DeviceAccess) : (s.logDevice e).imask = s.imask := rfl
@[simp] theorem State.logDevice_estat (e : DeviceAccess) : (s.logDevice e).estat = s.estat := rfl
@[simp] theorem State.logDevice_evec (e : DeviceAccess) : (s.logDevice e).evec = s.evec := rfl
@[simp] theorem State.logDevice_ear (e : DeviceAccess) : (s.logDevice e).ear = s.ear := rfl
@[simp] theorem State.logDevice_esp (e : DeviceAccess) : (s.logDevice e).esp = s.esp := rfl
@[simp] theorem State.logDevice_ers (e : DeviceAccess) : (s.logDevice e).ers = s.ers := rfl
@[simp] theorem State.logDevice_ptable (e : DeviceAccess) : (s.logDevice e).ptable = s.ptable := rfl
@[simp] theorem State.logDevice_rbase (e : DeviceAccess) : (s.logDevice e).rbase = s.rbase := rfl
@[simp] theorem State.logDevice_mem (e : DeviceAccess) : (s.logDevice e).mem = s.mem := rfl
@[simp] theorem State.logDevice_irq (e : DeviceAccess) : (s.logDevice e).irq = s.irq := rfl
@[simp] theorem State.logDevice_lineFeed (e : DeviceAccess) : (s.logDevice e).lineFeed = s.lineFeed := rfl
@[simp] theorem State.logDevice_draws (e : DeviceAccess) : (s.logDevice e).draws = s.draws := rfl
@[simp] theorem State.logDevice_deviceLog (e : DeviceAccess) : (s.logDevice e).deviceLog = e :: s.deviceLog := rfl
@[simp] theorem State.logDevice_stored (e : DeviceAccess) : (s.logDevice e).stored = s.stored := rfl
@[simp] theorem State.logDevice_evecWritten (e : DeviceAccess) : (s.logDevice e).evecWritten = s.evecWritten := rfl
@[simp] theorem State.logDevice_platform (e : DeviceAccess) : (s.logDevice e).platform = s.platform := rfl

@[simp] theorem State.setMem_regs (m : Memory) : (s.setMem m).regs = s.regs := rfl
@[simp] theorem State.setMem_pc (m : Memory) : (s.setMem m).pc = s.pc := rfl
@[simp] theorem State.setMem_ie (m : Memory) : (s.setMem m).ie = s.ie := rfl
@[simp] theorem State.setMem_ku (m : Memory) : (s.setMem m).ku = s.ku := rfl
@[simp] theorem State.setMem_oie (m : Memory) : (s.setMem m).oie = s.oie := rfl
@[simp] theorem State.setMem_oku (m : Memory) : (s.setMem m).oku = s.oku := rfl
@[simp] theorem State.setMem_imask (m : Memory) : (s.setMem m).imask = s.imask := rfl
@[simp] theorem State.setMem_estat (m : Memory) : (s.setMem m).estat = s.estat := rfl
@[simp] theorem State.setMem_evec (m : Memory) : (s.setMem m).evec = s.evec := rfl
@[simp] theorem State.setMem_ear (m : Memory) : (s.setMem m).ear = s.ear := rfl
@[simp] theorem State.setMem_esp (m : Memory) : (s.setMem m).esp = s.esp := rfl
@[simp] theorem State.setMem_ers (m : Memory) : (s.setMem m).ers = s.ers := rfl
@[simp] theorem State.setMem_ptable (m : Memory) : (s.setMem m).ptable = s.ptable := rfl
@[simp] theorem State.setMem_rbase (m : Memory) : (s.setMem m).rbase = s.rbase := rfl
@[simp] theorem State.setMem_mem (m : Memory) : (s.setMem m).mem = m := rfl
@[simp] theorem State.setMem_irq (m : Memory) : (s.setMem m).irq = s.irq := rfl
@[simp] theorem State.setMem_lineFeed (m : Memory) : (s.setMem m).lineFeed = s.lineFeed := rfl
@[simp] theorem State.setMem_draws (m : Memory) : (s.setMem m).draws = s.draws := rfl
@[simp] theorem State.setMem_deviceLog (m : Memory) : (s.setMem m).deviceLog = s.deviceLog := rfl
@[simp] theorem State.setMem_stored (m : Memory) : (s.setMem m).stored = s.stored := rfl
@[simp] theorem State.setMem_evecWritten (m : Memory) : (s.setMem m).evecWritten = s.evecWritten := rfl
@[simp] theorem State.setMem_platform (m : Memory) : (s.setMem m).platform = s.platform := rfl

@[simp] theorem State.noteStore_regs (a : Addr) : (s.noteStore a).regs = s.regs := rfl
@[simp] theorem State.noteStore_pc (a : Addr) : (s.noteStore a).pc = s.pc := rfl
@[simp] theorem State.noteStore_ie (a : Addr) : (s.noteStore a).ie = s.ie := rfl
@[simp] theorem State.noteStore_ku (a : Addr) : (s.noteStore a).ku = s.ku := rfl
@[simp] theorem State.noteStore_oie (a : Addr) : (s.noteStore a).oie = s.oie := rfl
@[simp] theorem State.noteStore_oku (a : Addr) : (s.noteStore a).oku = s.oku := rfl
@[simp] theorem State.noteStore_imask (a : Addr) : (s.noteStore a).imask = s.imask := rfl
@[simp] theorem State.noteStore_estat (a : Addr) : (s.noteStore a).estat = s.estat := rfl
@[simp] theorem State.noteStore_evec (a : Addr) : (s.noteStore a).evec = s.evec := rfl
@[simp] theorem State.noteStore_ear (a : Addr) : (s.noteStore a).ear = s.ear := rfl
@[simp] theorem State.noteStore_esp (a : Addr) : (s.noteStore a).esp = s.esp := rfl
@[simp] theorem State.noteStore_ers (a : Addr) : (s.noteStore a).ers = s.ers := rfl
@[simp] theorem State.noteStore_ptable (a : Addr) : (s.noteStore a).ptable = s.ptable := rfl
@[simp] theorem State.noteStore_rbase (a : Addr) : (s.noteStore a).rbase = s.rbase := rfl
@[simp] theorem State.noteStore_mem (a : Addr) : (s.noteStore a).mem = s.mem := rfl
@[simp] theorem State.noteStore_irq (a : Addr) : (s.noteStore a).irq = s.irq := rfl
@[simp] theorem State.noteStore_lineFeed (a : Addr) : (s.noteStore a).lineFeed = s.lineFeed := rfl
@[simp] theorem State.noteStore_draws (a : Addr) : (s.noteStore a).draws = s.draws := rfl
@[simp] theorem State.noteStore_deviceLog (a : Addr) : (s.noteStore a).deviceLog = s.deviceLog := rfl
@[simp] theorem State.noteStore_stored (a : Addr) : (s.noteStore a).stored = if a ∈ s.stored then s.stored else a :: s.stored := rfl
@[simp] theorem State.noteStore_evecWritten (a : Addr) : (s.noteStore a).evecWritten = s.evecWritten := rfl
@[simp] theorem State.noteStore_platform (a : Addr) : (s.noteStore a).platform = s.platform := rfl

@[simp] theorem State.placeWord_regs (a : Addr) (v : Word) : (s.placeWord a v).regs = s.regs := rfl
@[simp] theorem State.placeWord_pc (a : Addr) (v : Word) : (s.placeWord a v).pc = s.pc := rfl
@[simp] theorem State.placeWord_ie (a : Addr) (v : Word) : (s.placeWord a v).ie = s.ie := rfl
@[simp] theorem State.placeWord_ku (a : Addr) (v : Word) : (s.placeWord a v).ku = s.ku := rfl
@[simp] theorem State.placeWord_oie (a : Addr) (v : Word) : (s.placeWord a v).oie = s.oie := rfl
@[simp] theorem State.placeWord_oku (a : Addr) (v : Word) : (s.placeWord a v).oku = s.oku := rfl
@[simp] theorem State.placeWord_imask (a : Addr) (v : Word) : (s.placeWord a v).imask = s.imask := rfl
@[simp] theorem State.placeWord_estat (a : Addr) (v : Word) : (s.placeWord a v).estat = s.estat := rfl
@[simp] theorem State.placeWord_evec (a : Addr) (v : Word) : (s.placeWord a v).evec = s.evec := rfl
@[simp] theorem State.placeWord_ear (a : Addr) (v : Word) : (s.placeWord a v).ear = s.ear := rfl
@[simp] theorem State.placeWord_esp (a : Addr) (v : Word) : (s.placeWord a v).esp = s.esp := rfl
@[simp] theorem State.placeWord_ers (a : Addr) (v : Word) : (s.placeWord a v).ers = s.ers := rfl
@[simp] theorem State.placeWord_ptable (a : Addr) (v : Word) : (s.placeWord a v).ptable = s.ptable := rfl
@[simp] theorem State.placeWord_rbase (a : Addr) (v : Word) : (s.placeWord a v).rbase = s.rbase := rfl
@[simp] theorem State.placeWord_mem (a : Addr) (v : Word) : (s.placeWord a v).mem = s.mem.writeWord a v := rfl
@[simp] theorem State.placeWord_irq (a : Addr) (v : Word) : (s.placeWord a v).irq = s.irq := rfl
@[simp] theorem State.placeWord_lineFeed (a : Addr) (v : Word) : (s.placeWord a v).lineFeed = s.lineFeed := rfl
@[simp] theorem State.placeWord_draws (a : Addr) (v : Word) : (s.placeWord a v).draws = s.draws := rfl
@[simp] theorem State.placeWord_deviceLog (a : Addr) (v : Word) : (s.placeWord a v).deviceLog = s.deviceLog := rfl
@[simp] theorem State.placeWord_stored (a : Addr) (v : Word) : (s.placeWord a v).stored = s.stored.erase a := rfl
@[simp] theorem State.placeWord_evecWritten (a : Addr) (v : Word) : (s.placeWord a v).evecWritten = s.evecWritten := rfl
@[simp] theorem State.placeWord_platform (a : Addr) (v : Word) : (s.placeWord a v).platform = s.platform := rfl

@[simp] theorem State.setCctrl_regs (v : Word) : (s.setCctrl v).regs = s.regs := rfl
@[simp] theorem State.setCctrl_pc (v : Word) : (s.setCctrl v).pc = s.pc := rfl
@[simp] theorem State.setCctrl_ie (v : Word) : (s.setCctrl v).ie = v.getLsbD s.platform.spr.ieBit := rfl
@[simp] theorem State.setCctrl_ku (v : Word) : (s.setCctrl v).ku = v.getLsbD s.platform.spr.kuBit := rfl
@[simp] theorem State.setCctrl_oie (v : Word) : (s.setCctrl v).oie = v.getLsbD s.platform.spr.oieBit := rfl
@[simp] theorem State.setCctrl_oku (v : Word) : (s.setCctrl v).oku = v.getLsbD s.platform.spr.okuBit := rfl
@[simp] theorem State.setCctrl_imask (v : Word) : (s.setCctrl v).imask = v.extractLsb' s.platform.spr.imaskBit 8 := rfl
@[simp] theorem State.setCctrl_estat (v : Word) : (s.setCctrl v).estat = s.estat := rfl
@[simp] theorem State.setCctrl_evec (v : Word) : (s.setCctrl v).evec = s.evec := rfl
@[simp] theorem State.setCctrl_ear (v : Word) : (s.setCctrl v).ear = s.ear := rfl
@[simp] theorem State.setCctrl_esp (v : Word) : (s.setCctrl v).esp = s.esp := rfl
@[simp] theorem State.setCctrl_ers (v : Word) : (s.setCctrl v).ers = s.ers := rfl
@[simp] theorem State.setCctrl_ptable (v : Word) : (s.setCctrl v).ptable = s.ptable := rfl
@[simp] theorem State.setCctrl_rbase (v : Word) : (s.setCctrl v).rbase = s.rbase := rfl
@[simp] theorem State.setCctrl_mem (v : Word) : (s.setCctrl v).mem = s.mem := rfl
@[simp] theorem State.setCctrl_irq (v : Word) : (s.setCctrl v).irq = s.irq := rfl
@[simp] theorem State.setCctrl_lineFeed (v : Word) : (s.setCctrl v).lineFeed = s.lineFeed := rfl
@[simp] theorem State.setCctrl_draws (v : Word) : (s.setCctrl v).draws = s.draws := rfl
@[simp] theorem State.setCctrl_deviceLog (v : Word) : (s.setCctrl v).deviceLog = s.deviceLog := rfl
@[simp] theorem State.setCctrl_stored (v : Word) : (s.setCctrl v).stored = s.stored := rfl
@[simp] theorem State.setCctrl_evecWritten (v : Word) : (s.setCctrl v).evecWritten = s.evecWritten := rfl
@[simp] theorem State.setCctrl_platform (v : Word) : (s.setCctrl v).platform = s.platform := rfl

@[simp] theorem State.sampleLines_regs : (s.sampleLines).regs = s.regs := rfl
@[simp] theorem State.sampleLines_pc : (s.sampleLines).pc = s.pc := rfl
@[simp] theorem State.sampleLines_ie : (s.sampleLines).ie = s.ie := rfl
@[simp] theorem State.sampleLines_ku : (s.sampleLines).ku = s.ku := rfl
@[simp] theorem State.sampleLines_oie : (s.sampleLines).oie = s.oie := rfl
@[simp] theorem State.sampleLines_oku : (s.sampleLines).oku = s.oku := rfl
@[simp] theorem State.sampleLines_imask : (s.sampleLines).imask = s.imask := rfl
@[simp] theorem State.sampleLines_estat : (s.sampleLines).estat = s.estat := rfl
@[simp] theorem State.sampleLines_evec : (s.sampleLines).evec = s.evec := rfl
@[simp] theorem State.sampleLines_ear : (s.sampleLines).ear = s.ear := rfl
@[simp] theorem State.sampleLines_esp : (s.sampleLines).esp = s.esp := rfl
@[simp] theorem State.sampleLines_ers : (s.sampleLines).ers = s.ers := rfl
@[simp] theorem State.sampleLines_ptable : (s.sampleLines).ptable = s.ptable := rfl
@[simp] theorem State.sampleLines_rbase : (s.sampleLines).rbase = s.rbase := rfl
@[simp] theorem State.sampleLines_mem : (s.sampleLines).mem = s.mem := rfl
@[simp] theorem State.sampleLines_irq : (s.sampleLines).irq = s.drivenLines := rfl
@[simp] theorem State.sampleLines_lineFeed : (s.sampleLines).lineFeed = s.lineFeed.tail := rfl
@[simp] theorem State.sampleLines_draws : (s.sampleLines).draws = s.draws := rfl
@[simp] theorem State.sampleLines_deviceLog : (s.sampleLines).deviceLog = s.deviceLog := rfl
@[simp] theorem State.sampleLines_stored : (s.sampleLines).stored = s.stored := rfl
@[simp] theorem State.sampleLines_evecWritten : (s.sampleLines).evecWritten = s.evecWritten := rfl
@[simp] theorem State.sampleLines_platform : (s.sampleLines).platform = s.platform := rfl

/-! Exception entry, whatever assignments `EXC_ENTRY` lists: a field that no assignment writes is as
before; the sequence of 60_exceptions.md R270 writes seven fields. -/

/-- A field that no assignment of entry writes is as it was before the entry. -/
theorem State.enter_unwritten {α : Type} (f : State → α) (c : Word) (a : Addr)
    (h : ∀ t e, f (s.entryStep c a t e) = f t) : f (s.enter c a) = f s := by
  have : ∀ (l : List EntryStep) (t : State), f (l.foldl (s.entryStep c a) t) = f t := by
    intro l
    induction l with
    | nil => exact fun _ => rfl
    | cons e l ih => exact fun t => (ih _).trans (h t e)
  exact this _ _

@[simp] theorem State.enter_regs (c : Word) (a : Addr) : (s.enter c a).regs = s.regs :=
  s.enter_unwritten State.regs c a fun _ e => by cases e <;> rfl
@[simp] theorem State.enter_imask (c : Word) (a : Addr) : (s.enter c a).imask = s.imask :=
  s.enter_unwritten State.imask c a fun _ e => by cases e <;> rfl
@[simp] theorem State.enter_evec (c : Word) (a : Addr) : (s.enter c a).evec = s.evec :=
  s.enter_unwritten State.evec c a fun _ e => by cases e <;> rfl
@[simp] theorem State.enter_esp (c : Word) (a : Addr) : (s.enter c a).esp = s.esp :=
  s.enter_unwritten State.esp c a fun _ e => by cases e <;> rfl
@[simp] theorem State.enter_ers (c : Word) (a : Addr) : (s.enter c a).ers = s.ers :=
  s.enter_unwritten State.ers c a fun _ e => by cases e <;> rfl
@[simp] theorem State.enter_ptable (c : Word) (a : Addr) : (s.enter c a).ptable = s.ptable :=
  s.enter_unwritten State.ptable c a fun _ e => by cases e <;> rfl
@[simp] theorem State.enter_rbase (c : Word) (a : Addr) : (s.enter c a).rbase = s.rbase :=
  s.enter_unwritten State.rbase c a fun _ e => by cases e <;> rfl
@[simp] theorem State.enter_mem (c : Word) (a : Addr) : (s.enter c a).mem = s.mem :=
  s.enter_unwritten State.mem c a fun _ e => by cases e <;> rfl
@[simp] theorem State.enter_irq (c : Word) (a : Addr) : (s.enter c a).irq = s.irq :=
  s.enter_unwritten State.irq c a fun _ e => by cases e <;> rfl
@[simp] theorem State.enter_lineFeed (c : Word) (a : Addr) : (s.enter c a).lineFeed = s.lineFeed :=
  s.enter_unwritten State.lineFeed c a fun _ e => by cases e <;> rfl
@[simp] theorem State.enter_draws (c : Word) (a : Addr) : (s.enter c a).draws = s.draws :=
  s.enter_unwritten State.draws c a fun _ e => by cases e <;> rfl
@[simp] theorem State.enter_deviceLog (c : Word) (a : Addr) : (s.enter c a).deviceLog = s.deviceLog :=
  s.enter_unwritten State.deviceLog c a fun _ e => by cases e <;> rfl
@[simp] theorem State.enter_stored (c : Word) (a : Addr) : (s.enter c a).stored = s.stored :=
  s.enter_unwritten State.stored c a fun _ e => by cases e <;> rfl
@[simp] theorem State.enter_evecWritten (c : Word) (a : Addr) : (s.enter c a).evecWritten = s.evecWritten :=
  s.enter_unwritten State.evecWritten c a fun _ e => by cases e <;> rfl
@[simp] theorem State.enter_platform (c : Word) (a : Addr) : (s.enter c a).platform = s.platform :=
  s.enter_unwritten State.platform c a fun _ e => by cases e <;> rfl

/-- The entry sequence of 60_exceptions.md R270. -/
theorem State.enter_eq {s : State} (h : s.platform.excEntry = EntryStep.sequence) (c : Word) (a : Addr) :
    s.enter c a = { s with
      oie := s.ie, oku := s.ku, ie := false, ku := s.platform.kuKernel, ear := wordOfAddr a,
      estat := c, pc := s.handler } := by
  rw [State.enter, h]; rfl

/-! What an arithmetic exception leaves in the destination (`EXC_RD`). -/

@[simp] theorem State.spoil_pc (rd : Reg) : (s.spoil rd).pc = s.pc := by
  unfold State.spoil; split <;> rfl
@[simp] theorem State.spoil_ie (rd : Reg) : (s.spoil rd).ie = s.ie := by
  unfold State.spoil; split <;> rfl
@[simp] theorem State.spoil_ku (rd : Reg) : (s.spoil rd).ku = s.ku := by
  unfold State.spoil; split <;> rfl
@[simp] theorem State.spoil_oie (rd : Reg) : (s.spoil rd).oie = s.oie := by
  unfold State.spoil; split <;> rfl
@[simp] theorem State.spoil_oku (rd : Reg) : (s.spoil rd).oku = s.oku := by
  unfold State.spoil; split <;> rfl
@[simp] theorem State.spoil_imask (rd : Reg) : (s.spoil rd).imask = s.imask := by
  unfold State.spoil; split <;> rfl
@[simp] theorem State.spoil_estat (rd : Reg) : (s.spoil rd).estat = s.estat := by
  unfold State.spoil; split <;> rfl
@[simp] theorem State.spoil_evec (rd : Reg) : (s.spoil rd).evec = s.evec := by
  unfold State.spoil; split <;> rfl
@[simp] theorem State.spoil_ear (rd : Reg) : (s.spoil rd).ear = s.ear := by
  unfold State.spoil; split <;> rfl
@[simp] theorem State.spoil_esp (rd : Reg) : (s.spoil rd).esp = s.esp := by
  unfold State.spoil; split <;> rfl
@[simp] theorem State.spoil_ers (rd : Reg) : (s.spoil rd).ers = s.ers := by
  unfold State.spoil; split <;> rfl
@[simp] theorem State.spoil_ptable (rd : Reg) : (s.spoil rd).ptable = s.ptable := by
  unfold State.spoil; split <;> rfl
@[simp] theorem State.spoil_rbase (rd : Reg) : (s.spoil rd).rbase = s.rbase := by
  unfold State.spoil; split <;> rfl
@[simp] theorem State.spoil_mem (rd : Reg) : (s.spoil rd).mem = s.mem := by
  unfold State.spoil; split <;> rfl
@[simp] theorem State.spoil_irq (rd : Reg) : (s.spoil rd).irq = s.irq := by
  unfold State.spoil; split <;> rfl
@[simp] theorem State.spoil_lineFeed (rd : Reg) : (s.spoil rd).lineFeed = s.lineFeed := by
  unfold State.spoil; split <;> rfl
@[simp] theorem State.spoil_deviceLog (rd : Reg) : (s.spoil rd).deviceLog = s.deviceLog := by
  unfold State.spoil; split <;> rfl
@[simp] theorem State.spoil_stored (rd : Reg) : (s.spoil rd).stored = s.stored := by
  unfold State.spoil; split <;> rfl
@[simp] theorem State.spoil_evecWritten (rd : Reg) : (s.spoil rd).evecWritten = s.evecWritten := by
  unfold State.spoil; split <;> rfl
@[simp] theorem State.spoil_platform (rd : Reg) : (s.spoil rd).platform = s.platform := by
  unfold State.spoil; split <;> rfl

theorem State.spoil_eq {s : State} (h : s.platform.excRd = .unchanged) (rd : Reg) : s.spoil rd = s := by
  simp [State.spoil, h]

/-! A write to a special register: the fields no such write touches, then the register named. -/

@[simp] theorem State.setSpecial_regs (k : Special) (v : Word) :
    (s.setSpecial k v).regs = s.regs := by cases k <;> rfl
@[simp] theorem State.setSpecial_pc (k : Special) (v : Word) :
    (s.setSpecial k v).pc = s.pc := by cases k <;> rfl
@[simp] theorem State.setSpecial_mem (k : Special) (v : Word) :
    (s.setSpecial k v).mem = s.mem := by cases k <;> rfl
@[simp] theorem State.setSpecial_irq (k : Special) (v : Word) :
    (s.setSpecial k v).irq = s.irq := by cases k <;> rfl
@[simp] theorem State.setSpecial_lineFeed (k : Special) (v : Word) :
    (s.setSpecial k v).lineFeed = s.lineFeed := by cases k <;> rfl
@[simp] theorem State.setSpecial_draws (k : Special) (v : Word) :
    (s.setSpecial k v).draws = s.draws := by cases k <;> rfl
@[simp] theorem State.setSpecial_deviceLog (k : Special) (v : Word) :
    (s.setSpecial k v).deviceLog = s.deviceLog := by cases k <;> rfl
@[simp] theorem State.setSpecial_stored (k : Special) (v : Word) :
    (s.setSpecial k v).stored = s.stored := by cases k <;> rfl
@[simp] theorem State.setSpecial_platform (k : Special) (v : Word) :
    (s.setSpecial k v).platform = s.platform := by cases k <;> rfl

@[simp] theorem State.setSpecial_cctrl (v : Word) : s.setSpecial .cctrl v = s.setCctrl v := rfl
@[simp] theorem State.setSpecial_estat_ie (v : Word) :
    (s.setSpecial .estat v).ie = s.ie := rfl
@[simp] theorem State.setSpecial_estat_ku (v : Word) :
    (s.setSpecial .estat v).ku = s.ku := rfl
@[simp] theorem State.setSpecial_estat_oie (v : Word) :
    (s.setSpecial .estat v).oie = s.oie := rfl
@[simp] theorem State.setSpecial_estat_oku (v : Word) :
    (s.setSpecial .estat v).oku = s.oku := rfl
@[simp] theorem State.setSpecial_estat_imask (v : Word) :
    (s.setSpecial .estat v).imask = s.imask := rfl
@[simp] theorem State.setSpecial_estat_estat (v : Word) :
    (s.setSpecial .estat v).estat = v := rfl
@[simp] theorem State.setSpecial_estat_evec (v : Word) :
    (s.setSpecial .estat v).evec = s.evec := rfl
@[simp] theorem State.setSpecial_estat_ear (v : Word) :
    (s.setSpecial .estat v).ear = s.ear := rfl
@[simp] theorem State.setSpecial_estat_esp (v : Word) :
    (s.setSpecial .estat v).esp = s.esp := rfl
@[simp] theorem State.setSpecial_estat_ers (v : Word) :
    (s.setSpecial .estat v).ers = s.ers := rfl
@[simp] theorem State.setSpecial_estat_ptable (v : Word) :
    (s.setSpecial .estat v).ptable = s.ptable := rfl
@[simp] theorem State.setSpecial_estat_rbase (v : Word) :
    (s.setSpecial .estat v).rbase = s.rbase := rfl
@[simp] theorem State.setSpecial_estat_evecWritten (v : Word) :
    (s.setSpecial .estat v).evecWritten = s.evecWritten := rfl
@[simp] theorem State.setSpecial_evec_ie (v : Word) :
    (s.setSpecial .evec v).ie = s.ie := rfl
@[simp] theorem State.setSpecial_evec_ku (v : Word) :
    (s.setSpecial .evec v).ku = s.ku := rfl
@[simp] theorem State.setSpecial_evec_oie (v : Word) :
    (s.setSpecial .evec v).oie = s.oie := rfl
@[simp] theorem State.setSpecial_evec_oku (v : Word) :
    (s.setSpecial .evec v).oku = s.oku := rfl
@[simp] theorem State.setSpecial_evec_imask (v : Word) :
    (s.setSpecial .evec v).imask = s.imask := rfl
@[simp] theorem State.setSpecial_evec_estat (v : Word) :
    (s.setSpecial .evec v).estat = s.estat := rfl
@[simp] theorem State.setSpecial_evec_evec (v : Word) :
    (s.setSpecial .evec v).evec = v := rfl
@[simp] theorem State.setSpecial_evec_ear (v : Word) :
    (s.setSpecial .evec v).ear = s.ear := rfl
@[simp] theorem State.setSpecial_evec_esp (v : Word) :
    (s.setSpecial .evec v).esp = s.esp := rfl
@[simp] theorem State.setSpecial_evec_ers (v : Word) :
    (s.setSpecial .evec v).ers = s.ers := rfl
@[simp] theorem State.setSpecial_evec_ptable (v : Word) :
    (s.setSpecial .evec v).ptable = s.ptable := rfl
@[simp] theorem State.setSpecial_evec_rbase (v : Word) :
    (s.setSpecial .evec v).rbase = s.rbase := rfl
@[simp] theorem State.setSpecial_evec_evecWritten (v : Word) :
    (s.setSpecial .evec v).evecWritten = true := rfl
@[simp] theorem State.setSpecial_ear_ie (v : Word) :
    (s.setSpecial .ear v).ie = s.ie := rfl
@[simp] theorem State.setSpecial_ear_ku (v : Word) :
    (s.setSpecial .ear v).ku = s.ku := rfl
@[simp] theorem State.setSpecial_ear_oie (v : Word) :
    (s.setSpecial .ear v).oie = s.oie := rfl
@[simp] theorem State.setSpecial_ear_oku (v : Word) :
    (s.setSpecial .ear v).oku = s.oku := rfl
@[simp] theorem State.setSpecial_ear_imask (v : Word) :
    (s.setSpecial .ear v).imask = s.imask := rfl
@[simp] theorem State.setSpecial_ear_estat (v : Word) :
    (s.setSpecial .ear v).estat = s.estat := rfl
@[simp] theorem State.setSpecial_ear_evec (v : Word) :
    (s.setSpecial .ear v).evec = s.evec := rfl
@[simp] theorem State.setSpecial_ear_ear (v : Word) :
    (s.setSpecial .ear v).ear = v := rfl
@[simp] theorem State.setSpecial_ear_esp (v : Word) :
    (s.setSpecial .ear v).esp = s.esp := rfl
@[simp] theorem State.setSpecial_ear_ers (v : Word) :
    (s.setSpecial .ear v).ers = s.ers := rfl
@[simp] theorem State.setSpecial_ear_ptable (v : Word) :
    (s.setSpecial .ear v).ptable = s.ptable := rfl
@[simp] theorem State.setSpecial_ear_rbase (v : Word) :
    (s.setSpecial .ear v).rbase = s.rbase := rfl
@[simp] theorem State.setSpecial_ear_evecWritten (v : Word) :
    (s.setSpecial .ear v).evecWritten = s.evecWritten := rfl
@[simp] theorem State.setSpecial_esp_ie (v : Word) :
    (s.setSpecial .esp v).ie = s.ie := rfl
@[simp] theorem State.setSpecial_esp_ku (v : Word) :
    (s.setSpecial .esp v).ku = s.ku := rfl
@[simp] theorem State.setSpecial_esp_oie (v : Word) :
    (s.setSpecial .esp v).oie = s.oie := rfl
@[simp] theorem State.setSpecial_esp_oku (v : Word) :
    (s.setSpecial .esp v).oku = s.oku := rfl
@[simp] theorem State.setSpecial_esp_imask (v : Word) :
    (s.setSpecial .esp v).imask = s.imask := rfl
@[simp] theorem State.setSpecial_esp_estat (v : Word) :
    (s.setSpecial .esp v).estat = s.estat := rfl
@[simp] theorem State.setSpecial_esp_evec (v : Word) :
    (s.setSpecial .esp v).evec = s.evec := rfl
@[simp] theorem State.setSpecial_esp_ear (v : Word) :
    (s.setSpecial .esp v).ear = s.ear := rfl
@[simp] theorem State.setSpecial_esp_esp (v : Word) :
    (s.setSpecial .esp v).esp = v := rfl
@[simp] theorem State.setSpecial_esp_ers (v : Word) :
    (s.setSpecial .esp v).ers = s.ers := rfl
@[simp] theorem State.setSpecial_esp_ptable (v : Word) :
    (s.setSpecial .esp v).ptable = s.ptable := rfl
@[simp] theorem State.setSpecial_esp_rbase (v : Word) :
    (s.setSpecial .esp v).rbase = s.rbase := rfl
@[simp] theorem State.setSpecial_esp_evecWritten (v : Word) :
    (s.setSpecial .esp v).evecWritten = s.evecWritten := rfl
@[simp] theorem State.setSpecial_ers_ie (v : Word) :
    (s.setSpecial .ers v).ie = s.ie := rfl
@[simp] theorem State.setSpecial_ers_ku (v : Word) :
    (s.setSpecial .ers v).ku = s.ku := rfl
@[simp] theorem State.setSpecial_ers_oie (v : Word) :
    (s.setSpecial .ers v).oie = s.oie := rfl
@[simp] theorem State.setSpecial_ers_oku (v : Word) :
    (s.setSpecial .ers v).oku = s.oku := rfl
@[simp] theorem State.setSpecial_ers_imask (v : Word) :
    (s.setSpecial .ers v).imask = s.imask := rfl
@[simp] theorem State.setSpecial_ers_estat (v : Word) :
    (s.setSpecial .ers v).estat = s.estat := rfl
@[simp] theorem State.setSpecial_ers_evec (v : Word) :
    (s.setSpecial .ers v).evec = s.evec := rfl
@[simp] theorem State.setSpecial_ers_ear (v : Word) :
    (s.setSpecial .ers v).ear = s.ear := rfl
@[simp] theorem State.setSpecial_ers_esp (v : Word) :
    (s.setSpecial .ers v).esp = s.esp := rfl
@[simp] theorem State.setSpecial_ers_ers (v : Word) :
    (s.setSpecial .ers v).ers = v := rfl
@[simp] theorem State.setSpecial_ers_ptable (v : Word) :
    (s.setSpecial .ers v).ptable = s.ptable := rfl
@[simp] theorem State.setSpecial_ers_rbase (v : Word) :
    (s.setSpecial .ers v).rbase = s.rbase := rfl
@[simp] theorem State.setSpecial_ers_evecWritten (v : Word) :
    (s.setSpecial .ers v).evecWritten = s.evecWritten := rfl
@[simp] theorem State.setSpecial_ptable_ie (v : Word) :
    (s.setSpecial .ptable v).ie = s.ie := rfl
@[simp] theorem State.setSpecial_ptable_ku (v : Word) :
    (s.setSpecial .ptable v).ku = s.ku := rfl
@[simp] theorem State.setSpecial_ptable_oie (v : Word) :
    (s.setSpecial .ptable v).oie = s.oie := rfl
@[simp] theorem State.setSpecial_ptable_oku (v : Word) :
    (s.setSpecial .ptable v).oku = s.oku := rfl
@[simp] theorem State.setSpecial_ptable_imask (v : Word) :
    (s.setSpecial .ptable v).imask = s.imask := rfl
@[simp] theorem State.setSpecial_ptable_estat (v : Word) :
    (s.setSpecial .ptable v).estat = s.estat := rfl
@[simp] theorem State.setSpecial_ptable_evec (v : Word) :
    (s.setSpecial .ptable v).evec = s.evec := rfl
@[simp] theorem State.setSpecial_ptable_ear (v : Word) :
    (s.setSpecial .ptable v).ear = s.ear := rfl
@[simp] theorem State.setSpecial_ptable_esp (v : Word) :
    (s.setSpecial .ptable v).esp = s.esp := rfl
@[simp] theorem State.setSpecial_ptable_ers (v : Word) :
    (s.setSpecial .ptable v).ers = s.ers := rfl
@[simp] theorem State.setSpecial_ptable_ptable (v : Word) :
    (s.setSpecial .ptable v).ptable = v := rfl
@[simp] theorem State.setSpecial_ptable_rbase (v : Word) :
    (s.setSpecial .ptable v).rbase = s.rbase := rfl
@[simp] theorem State.setSpecial_ptable_evecWritten (v : Word) :
    (s.setSpecial .ptable v).evecWritten = s.evecWritten := rfl
@[simp] theorem State.setSpecial_rbase_ie (v : Word) :
    (s.setSpecial .rbase v).ie = s.ie := rfl
@[simp] theorem State.setSpecial_rbase_ku (v : Word) :
    (s.setSpecial .rbase v).ku = s.ku := rfl
@[simp] theorem State.setSpecial_rbase_oie (v : Word) :
    (s.setSpecial .rbase v).oie = s.oie := rfl
@[simp] theorem State.setSpecial_rbase_oku (v : Word) :
    (s.setSpecial .rbase v).oku = s.oku := rfl
@[simp] theorem State.setSpecial_rbase_imask (v : Word) :
    (s.setSpecial .rbase v).imask = s.imask := rfl
@[simp] theorem State.setSpecial_rbase_estat (v : Word) :
    (s.setSpecial .rbase v).estat = s.estat := rfl
@[simp] theorem State.setSpecial_rbase_evec (v : Word) :
    (s.setSpecial .rbase v).evec = s.evec := rfl
@[simp] theorem State.setSpecial_rbase_ear (v : Word) :
    (s.setSpecial .rbase v).ear = s.ear := rfl
@[simp] theorem State.setSpecial_rbase_esp (v : Word) :
    (s.setSpecial .rbase v).esp = s.esp := rfl
@[simp] theorem State.setSpecial_rbase_ers (v : Word) :
    (s.setSpecial .rbase v).ers = s.ers := rfl
@[simp] theorem State.setSpecial_rbase_ptable (v : Word) :
    (s.setSpecial .rbase v).ptable = s.ptable := rfl
@[simp] theorem State.setSpecial_rbase_rbase (v : Word) :
    (s.setSpecial .rbase v).rbase = v := rfl
@[simp] theorem State.setSpecial_rbase_evecWritten (v : Word) :
    (s.setSpecial .rbase v).evecWritten = s.evecWritten := rfl

/-! Reading a special register uses a free value or nothing. -/

@[simp] theorem State.afterRead_regs (k : Special) : (s.afterRead k).regs = s.regs := by
  cases k <;> rfl
@[simp] theorem State.afterRead_pc (k : Special) : (s.afterRead k).pc = s.pc := by
  cases k <;> rfl
@[simp] theorem State.afterRead_ie (k : Special) : (s.afterRead k).ie = s.ie := by
  cases k <;> rfl
@[simp] theorem State.afterRead_ku (k : Special) : (s.afterRead k).ku = s.ku := by
  cases k <;> rfl
@[simp] theorem State.afterRead_oie (k : Special) : (s.afterRead k).oie = s.oie := by
  cases k <;> rfl
@[simp] theorem State.afterRead_oku (k : Special) : (s.afterRead k).oku = s.oku := by
  cases k <;> rfl
@[simp] theorem State.afterRead_imask (k : Special) : (s.afterRead k).imask = s.imask := by
  cases k <;> rfl
@[simp] theorem State.afterRead_estat (k : Special) : (s.afterRead k).estat = s.estat := by
  cases k <;> rfl
@[simp] theorem State.afterRead_evec (k : Special) : (s.afterRead k).evec = s.evec := by
  cases k <;> rfl
@[simp] theorem State.afterRead_ear (k : Special) : (s.afterRead k).ear = s.ear := by
  cases k <;> rfl
@[simp] theorem State.afterRead_esp (k : Special) : (s.afterRead k).esp = s.esp := by
  cases k <;> rfl
@[simp] theorem State.afterRead_ers (k : Special) : (s.afterRead k).ers = s.ers := by
  cases k <;> rfl
@[simp] theorem State.afterRead_ptable (k : Special) : (s.afterRead k).ptable = s.ptable := by
  cases k <;> rfl
@[simp] theorem State.afterRead_rbase (k : Special) : (s.afterRead k).rbase = s.rbase := by
  cases k <;> rfl
@[simp] theorem State.afterRead_mem (k : Special) : (s.afterRead k).mem = s.mem := by
  cases k <;> rfl
@[simp] theorem State.afterRead_irq (k : Special) : (s.afterRead k).irq = s.irq := by
  cases k <;> rfl
@[simp] theorem State.afterRead_lineFeed (k : Special) : (s.afterRead k).lineFeed = s.lineFeed := by
  cases k <;> rfl
@[simp] theorem State.afterRead_deviceLog (k : Special) : (s.afterRead k).deviceLog = s.deviceLog := by
  cases k <;> rfl
@[simp] theorem State.afterRead_stored (k : Special) : (s.afterRead k).stored = s.stored := by
  cases k <;> rfl
@[simp] theorem State.afterRead_evecWritten (k : Special) : (s.afterRead k).evecWritten = s.evecWritten := by
  cases k <;> rfl
@[simp] theorem State.afterRead_platform (k : Special) : (s.afterRead k).platform = s.platform := by
  cases k <;> rfl

/-! The fields of the state after reset (R50). -/

@[simp] theorem State.powerOn_pc (p : Platform) (u : PowerOn) :
    (State.powerOn p u).pc = p.resetPc := rfl
@[simp] theorem State.powerOn_ie (p : Platform) (u : PowerOn) :
    (State.powerOn p u).ie = p.resetIe := rfl
@[simp] theorem State.powerOn_ku (p : Platform) (u : PowerOn) :
    (State.powerOn p u).ku = p.resetKu := rfl
@[simp] theorem State.powerOn_oie (p : Platform) (u : PowerOn) :
    (State.powerOn p u).oie = u.oie := rfl
@[simp] theorem State.powerOn_oku (p : Platform) (u : PowerOn) :
    (State.powerOn p u).oku = u.oku := rfl
@[simp] theorem State.powerOn_imask (p : Platform) (u : PowerOn) :
    (State.powerOn p u).imask = u.imask := rfl
@[simp] theorem State.powerOn_estat (p : Platform) (u : PowerOn) :
    (State.powerOn p u).estat = u.estat := rfl
@[simp] theorem State.powerOn_evec (p : Platform) (u : PowerOn) :
    (State.powerOn p u).evec = u.evec := rfl
@[simp] theorem State.powerOn_ear (p : Platform) (u : PowerOn) :
    (State.powerOn p u).ear = u.ear := rfl
@[simp] theorem State.powerOn_esp (p : Platform) (u : PowerOn) :
    (State.powerOn p u).esp = u.esp := rfl
@[simp] theorem State.powerOn_ers (p : Platform) (u : PowerOn) :
    (State.powerOn p u).ers = u.ers := rfl
@[simp] theorem State.powerOn_ptable (p : Platform) (u : PowerOn) :
    (State.powerOn p u).ptable = u.ptable := rfl
@[simp] theorem State.powerOn_rbase (p : Platform) (u : PowerOn) :
    (State.powerOn p u).rbase = u.rbase := rfl
@[simp] theorem State.powerOn_mem (p : Platform) (u : PowerOn) :
    (State.powerOn p u).mem = [] := rfl
@[simp] theorem State.powerOn_irq (p : Platform) (u : PowerOn) :
    (State.powerOn p u).irq = u.irq := rfl
@[simp] theorem State.powerOn_lineFeed (p : Platform) (u : PowerOn) :
    (State.powerOn p u).lineFeed = [] := rfl
@[simp] theorem State.powerOn_draws (p : Platform) (u : PowerOn) :
    (State.powerOn p u).draws = 0 := rfl
@[simp] theorem State.powerOn_deviceLog (p : Platform) (u : PowerOn) :
    (State.powerOn p u).deviceLog = [] := rfl
@[simp] theorem State.powerOn_stored (p : Platform) (u : PowerOn) :
    (State.powerOn p u).stored = [] := rfl
@[simp] theorem State.powerOn_evecWritten (p : Platform) (u : PowerOn) :
    (State.powerOn p u).evecWritten = false := rfl
@[simp] theorem State.powerOn_platform (p : Platform) (u : PowerOn) :
    (State.powerOn p u).platform = p := rfl

end Sys2Proof.Machine
end

