-- ==== Sys2Proof/Laws/Ops.lean ====
section
/-! SUPPORT. One lemma for each shared operation, saying once everything it can do, and from them what
the ways an instruction ends (`retire`, `raise`, a jump, a link) give. -/

namespace Sys2Proof.Machine

variable {s t : State}

/-! ### General registers -/

@[simp] theorem State.reg_zero (s : State) : s.reg 0#4 = 0#32 := rfl

/-- Reading a register looks at the register file only. -/
theorem State.reg_congr (h : t.regs = s.regs) (r : Reg) : t.reg r = s.reg r := by
  simp [State.reg, h]

@[simp] theorem State.reg_setReg (s : State) (rd r : Reg) (v : Word) :
    (s.setReg rd v).reg r = if r = rd ∧ rd ≠ 0#4 then v else s.reg r := by
  by_cases hr : r = 0#4
  · subst hr
    by_cases hd : rd = 0#4 <;> simp [State.reg, hd, eq_comm]
  · by_cases hd : rd = 0#4
    · simp [State.reg, writeFile, hd]
    · simp only [State.reg, State.setReg_regs, writeFile, hr, hd, if_false, ne_eq, not_false_eq_true,
        and_true]
      by_cases h : r = rd
      · subst h
        exact (Vector.getElem_set_self (xs := s.regs) r.isLt).trans (if_pos rfl).symm
      · have : rd.toNat ≠ r.toNat := fun e => h (BitVec.eq_of_toNat_eq e.symm)
        simp [h, Vector.get_eq_getElem, Vector.getElem_set_ne, this]

@[simp] theorem State.reg_setPc (s : State) (a : Addr) (r : Reg) : (s.setPc a).reg r = s.reg r := rfl
@[simp] theorem State.reg_enter (s : State) (c : Word) (a : Addr) (r : Reg) :
    (s.enter c a).reg r = s.reg r := State.reg_congr (s.enter_regs c a) r
@[simp] theorem State.reg_returnFrom (s : State) (r : Reg) : s.returnFrom.reg r = s.reg r := rfl
@[simp] theorem State.reg_drawn (s : State) (r : Reg) : s.drawn.reg r = s.reg r := rfl
@[simp] theorem State.reg_logDevice (s : State) (e : DeviceAccess) (r : Reg) :
    (s.logDevice e).reg r = s.reg r := rfl
@[simp] theorem State.reg_setMem (s : State) (m : Memory) (r : Reg) : (s.setMem m).reg r = s.reg r := rfl
@[simp] theorem State.reg_noteStore (s : State) (a : Addr) (r : Reg) :
    (s.noteStore a).reg r = s.reg r := rfl
@[simp] theorem State.reg_placeWord (s : State) (a : Addr) (v : Word) (r : Reg) :
    (s.placeWord a v).reg r = s.reg r := rfl
@[simp] theorem State.reg_sampleLines (s : State) (r : Reg) : s.sampleLines.reg r = s.reg r := rfl
@[simp] theorem State.reg_setSpecial (s : State) (k : Special) (v : Word) (r : Reg) :
    (s.setSpecial k v).reg r = s.reg r := State.reg_congr (s.setSpecial_regs k v) r
@[simp] theorem State.reg_afterRead (s : State) (k : Special) (r : Reg) :
    (s.afterRead k).reg r = s.reg r := State.reg_congr (s.afterRead_regs k) r

/-- The entry of `$0` in the register file is never written. -/
@[simp] theorem writeFile_get_zero (regs : Vector Word 16) (r : Reg) (v : Word) :
    (writeFile regs r v).get 0 = regs.get 0 := by
  by_cases h : r = 0#4
  · simp [writeFile, h]
  · have : r.toNat ≠ 0 := fun e => h (BitVec.eq_of_toNat_eq (by simpa using e))
    simp [writeFile, h, Vector.get_eq_getElem, Vector.getElem_set_ne, this]

theorem State.writes_setReg (s : State) (rd : Reg) (v : Word) : Writes rd v s (s.setReg rd v) := by
  refine ⟨?_, fun r hr => ?_⟩
  · by_cases h : rd = 0#4 <;> simp [h]
  · simp [hr]

/-! ### Nothing changed -/

theorem SameRegs.refl (s : State) : SameRegs s s := fun _ => rfl

theorem SameMemory.refl (s : State) : SameMemory s s := fun _ => rfl

/-! ### Exception entry and return (60_exceptions.md R270, R275) -/

/-- A 20-bit field of a word, as a number. -/
theorem addrOfWord_eq (v : Word) : addrOfWord v = BitVec.ofNat 20 v.toNat := by
  apply BitVec.eq_of_toNat_eq
  simp [addrOfWord]

theorem addrOfWord_eq_setWidth (v : Word) : addrOfWord v = v.setWidth 20 := by
  apply BitVec.eq_of_toNat_eq
  simp [addrOfWord]

theorem wordOfAddr_eq (a : Addr) : wordOfAddr a = BitVec.ofNat 32 a.toNat := by
  apply BitVec.eq_of_toNat_eq
  simp [wordOfAddr]

/-- An address survives being put in a register and used as an address again. -/
@[simp] theorem addrOfWord_wordOfAddr (a : Addr) : addrOfWord (wordOfAddr a) = a := by
  apply BitVec.eq_of_toNat_eq
  have := a.isLt
  simp only [addrOfWord, wordOfAddr, BitVec.extractLsb'_toNat, BitVec.toNat_setWidth]
  omega

/-- Everything the entry of R270 to R274 does. -/
theorem State.entered_enter (h : DecidedEntry s) (c : Word) (a : Addr) : Entered c a s (s.enter c a) := by
  have e := s.enter_eq h.entry c a
  have k := h.kernel
  have p : s.handler = addrOfWord s.evec := by simp [State.handler, h.handler]
  refine ⟨⟨?_, ?_, ?_, ?_, ?_, ?_, ?_, ⟨?_, ?_, ?_, ?_, ?_, ?_, ?_⟩, fun _ => ?_, ⟨?_, ?_, ?_⟩⟩, fun _ => ?_,
    ⟨⟨?_, ?_, ?_⟩, ?_, ?_, ?_⟩⟩ <;> (try rw [e]) <;> (try rfl)
  · exact k
  · exact wordOfAddr_eq a
  · exact p.trans (addrOfWord_eq s.evec)

/-- Under the decided values the cause words are those of R273. -/
theorem causeWord_words : ∀ c : Cause, causeWord CauseEncoding.words c =
    match c with
    | .overflow => 0x8000#32
    | .divideByZero => 0x8000#32
    | .breakpoint => 0x4000#32
    | .systemCall => 0x2000#32
    | .generalProtection => 0x1000#32 := by
  intro c; cases c <;> rfl

/-! ### The successor of the last address (10_state.md R37, D5) -/

theorem State.hasSuccessor_iff : s.hasSuccessor = true ↔ HasSuccessor s := by
  simp [State.hasSuccessor, HasSuccessor]

theorem State.inSequence_of {effect : Result} (h : HasSuccessor s) : s.inSequence effect = effect := by
  have h := State.hasSuccessor_iff.2 h
  simp only [State.inSequence, h]; rfl

theorem State.inSequence_refused {effect : Result} (h : ¬ HasSuccessor s) :
    s.inSequence effect = .refused (.pastLastAddress s.pc) := by
  have h : s.hasSuccessor = false := Bool.eq_false_iff.2 fun e => h (State.hasSuccessor_iff.1 e)
  simp only [State.inSequence, h]; rfl

/-- An effect in sequence ends in a next state only where there is a next address. -/
theorem State.inSequence_eq_next {effect : Result} (h : s.inSequence effect = .next t) :
    HasSuccessor s ∧ effect = .next t := by
  by_cases hs : HasSuccessor s
  · rw [State.inSequence_of hs] at h; exact ⟨hs, h⟩
  · rw [State.inSequence_refused hs] at h; cases h

/-! ### The target of entry (60_exceptions.md R274) -/

theorem State.hasTarget_iff : s.hasTarget = true ↔ HasTarget s := by
  simp [State.hasTarget, HasTarget, or_assoc]

theorem State.entering_of (h : HasTarget s) (t : State) : s.entering t = .next t := by
  have h := State.hasTarget_iff.2 h
  simp only [State.entering, h]; rfl

theorem State.entering_refused (h : ¬ HasTarget s) (t : State) :
    s.entering t = .refused .handlerUnset := by
  have h : s.hasTarget = false := Bool.eq_false_iff.2 fun e => h (State.hasTarget_iff.1 e)
  simp only [State.entering, h]; rfl

/-- An entry that ends in a next state has a target. -/
theorem State.entering_eq_next {u : State} (h : s.entering u = .next t) : HasTarget s ∧ t = u := by
  by_cases hs : HasTarget s
  · rw [State.entering_of hs] at h; exact ⟨hs, (Host.Outcome.next.inj h).symm⟩
  · rw [State.entering_refused hs] at h; cases h

/-- `Rd` holding a draw does not change whether entry has a target. -/
theorem hasTarget_spoil (rd : Reg) : HasTarget (s.spoil rd) ↔ HasTarget s := by simp [HasTarget]

/-- A synchronous exception that is taken is the entry, and has a target. -/
theorem State.trap_eq_next {c : Cause} (h : s.trap c = .next t) : HasTarget s ∧ t = s.raise c := by
  unfold State.trap at h
  split at h
  · exact State.entering_eq_next (State.inSequence_eq_next h).2
  · exact State.entering_eq_next h

/-- The synchronous exception under the decided values. -/
theorem State.trap_of (h : DecidedTrap s) (c : Cause) :
    s.trap c = s.entering (s.enter (causeWord CauseEncoding.words c) (s.pc + 1#20)) := by
  simp only [State.trap, h.earValue, State.inSequence_of h.successor, State.raise_eq, h.causes,
    State.returnAddress, State.npc_eq]

/-! ### The fields of `$cctrl` as `movsg` reads it (10_state.md R42) -/

/-- The fields of the default profile, side by side. -/
theorem State.cctrlWord_profile (h : s.platform.spr = SprLayout.profile) (d : Word) :
    s.cctrlWord d = d.extractLsb' 12 20 ++ s.imask ++ BitVec.ofBool s.ku ++ BitVec.ofBool s.oku ++
      BitVec.ofBool s.ie ++ BitVec.ofBool s.oie := by
  have f : cctrlFields SprLayout.profile = 0xFFF#32 := by decide
  refine BitVec.eq_of_getLsbD_eq fun i hi => ?_
  simp only [State.cctrlWord, h, f]
  simp only [SprLayout.profile, byteAt, bitAt, BitVec.getLsbD_append, BitVec.getLsbD_extractLsb',
    BitVec.getLsbD_or, BitVec.getLsbD_and, BitVec.getLsbD_not, BitVec.getLsbD_shiftLeft,
    BitVec.getLsbD_setWidth]
  interval_cases i <;> simp

/-- A write to `$cctrl` under the default profile. -/
theorem State.setCctrl_profile (h : s.platform.spr = SprLayout.profile) (v : Word) :
    s.setCctrl v = { s with
      imask := v.extractLsb' 4 8, ku := v.getLsbD 3, oku := v.getLsbD 2, ie := v.getLsbD 1,
      oie := v.getLsbD 0 } := by
  rw [State.setCctrl, h]; rfl

/-! ### Memory through the map -/

/-- Everything a read can do (20_memory.md R62, R67, R77). -/
theorem State.memRead_cases {a : Addr} {v : Word} (h : s.memRead a = .ok (v, t)) :
    ((s.platform.memMap.kindAt a = .ram ∨ s.platform.memMap.kindAt a = .rom) ∧
      v = s.mem.word a ∧ t = s) ∨
    (s.platform.memMap.kindAt a = .device ∧ v = s.draw ∧ t = (s.logDevice (.read a s.draw)).drawn) := by
  unfold State.memRead at h
  split at h <;> cases h <;> simp [*]

/-- Everything a write can do (20_memory.md R63, R67, R77). -/
theorem State.memWrite_cases {a : Addr} {v : Word} (h : s.memWrite a v = .ok t) :
    (s.platform.memMap.kindAt a = .ram ∧ t = (s.setMem (s.mem.writeWord a v)).noteStore a) ∨
    (s.platform.memMap.kindAt a = .device ∧ t = s.logDevice (.write a v)) := by
  unfold State.memWrite at h
  split at h <;> cases h <;> simp [*]

/-- What a fetch needs and gives (20_memory.md R69, R75). -/
theorem State.fetch_eq_ok {w : Word} : s.fetch = .ok w ↔ WordAtPc w s := by
  have f : s.fetchable = true ↔ s.platform.fetchCoherence = .coherent ∨ s.pc ∉ s.stored := by
    simp [State.fetchable]
  unfold State.fetch WordAtPc
  rw [← f]
  split
  · rename_i h
    cases hw : s.mem.word? s.pc <;> cases hf : s.fetchable <;> simp [h]
  · rename_i h
    cases hw : s.mem.word? s.pc <;> cases hf : s.fetchable <;> simp [h]
  · rename_i h; simp [h]
  · rename_i h; simp [h]

/-! ### How an instruction ends -/

theorem completes_of_finish {i : Instr} {rd : Reg} {v : Word} (hs : HasSuccessor s)
    (h : exec i s = s.finish rd v) : Completes i s rd v := by
  rw [State.finish, State.inSequence_of hs] at h
  refine ⟨_, h, ?_, rfl, SameMemory.refl s,
    ⟨⟨rfl, rfl, rfl, rfl, rfl, rfl, rfl⟩, rfl, rfl, rfl, rfl, rfl, rfl⟩,
    ⟨⟨rfl, rfl, rfl⟩, rfl, rfl, rfl⟩⟩
  simpa [Writes, SameRegsBut] using s.writes_setReg rd v

theorem raises_of_trap {i : Instr} {c : Cause} (hd : DecidedTrap s) (h : exec i s = s.trap c) :
    Raises i s (causeWord CauseEncoding.words c) :=
  ⟨fun ht => ⟨_, h.trans ((State.trap_of hd c).trans (State.entering_of ht _)),
      State.entered_enter hd.toDecidedEntry _ _⟩,
    fun ht => h.trans ((State.trap_of hd c).trans (State.entering_refused ht _))⟩

/-- `Rd` holding a draw does not change how the entry goes. -/
theorem DecidedTrap.spoil (hd : DecidedTrap s) (rd : Reg) : DecidedTrap (s.spoil rd) :=
  ⟨⟨by simp [hd.entry], by simp [hd.handler], by simp [hd.causes], by simp [hd.kernel]⟩,
    by simp [hd.earValue], by simpa [HasSuccessor] using hd.successor⟩

theorem raisesArith_of_arithTrap {i : Instr} {c : Cause} {rd : Reg} (hd : DecidedTrap s)
    (h : exec i s = s.arithTrap rd c) : RaisesArith i s rd (causeWord CauseEncoding.words c) := by
  refine ⟨fun hu => ?_, fun ha => ?_⟩
  · rw [State.arithTrap, State.spoil_eq hu] at h
    exact raises_of_trap hd h
  · have hp : s.spoil rd = (s.setReg rd s.draw).drawn := by simp [State.spoil, ha]
    rw [State.arithTrap, State.trap_of (hd.spoil rd)] at h
    refine ⟨fun ht => ?_, fun ht =>
      h.trans (State.entering_refused (fun k => ht ((hasTarget_spoil rd).1 k)) _)⟩
    rw [State.entering_of ((hasTarget_spoil rd).2 ht)] at h
    have e := State.entered_enter (hd.spoil rd).toDecidedEntry
      (causeWord CauseEncoding.words c) ((s.spoil rd).pc + 1#20)
    refine ⟨_, h, ?_, ?_, ?_, ?_, ?_⟩
    · rw [hp] at e ⊢
      exact ⟨e.oie, e.oku, e.ie, e.ku, e.ear, e.estat, e.pc,
        ⟨e.others.imask, e.others.evec, e.others.evecWritten, e.others.esp, e.others.ers, e.others.ptable,
          e.others.rbase⟩,
        e.memory, ⟨e.outside.irq, e.outside.lineFeed, e.outside.platform⟩⟩
    · have w := s.writes_setReg rd s.draw
      rw [hp]
      simpa [Writes, SameRegsBut, State.draw] using w
    all_goals simp [hp]

theorem jumps_of_setPc {i : Instr} {target : Addr} (h : exec i s = .next (s.setPc target)) :
    Jumps i s target :=
  ⟨_, h, rfl, SameRegs.refl s, SameMemory.refl s,
    ⟨⟨rfl, rfl, rfl, rfl, rfl, rfl, rfl⟩, rfl, rfl, rfl, rfl, rfl, rfl⟩,
    ⟨⟨rfl, rfl, rfl⟩, rfl, rfl, rfl⟩⟩

theorem links_of_link {i : Instr} {target : Addr} (hs : HasSuccessor s)
    (h : exec i s = s.inSequence (.next (s.link target))) : Links i s target := by
  rw [State.inSequence_of hs] at h
  refine ⟨_, h, rfl, ?_, fun r hr => ?_, SameMemory.refl s,
    ⟨⟨rfl, rfl, rfl, rfl, rfl, rfl, rfl⟩, rfl, rfl, rfl, rfl, rfl, rfl⟩,
    ⟨⟨rfl, rfl, rfl⟩, rfl, rfl, rfl⟩⟩
  · simp [wordOfAddr_eq]
  · simp [hr]

/-! ### The invariant under the updates of the state -/

/-- The invariant looks at memory, the map and the entry of `$0` only. -/
theorem Inv.congr (h : Inv s) (m : t.mem = s.mem) (p : t.platform = s.platform)
    (r : t.regs.get 0 = s.regs.get 0) : Inv t where
  canonical := m ▸ h.canonical
  wholeWords := by rw [m]; exact h.wholeWords
  onlyStorage := by rw [m, p]; exact h.onlyStorage
  zeroEntry := r ▸ h.zeroEntry

/-- A word written where the map has storage keeps the invariant. -/
theorem Inv.writeWord (h : Inv s) {a : Addr} (v : Word)
    (storage : s.platform.memMap.kindAt a = .ram ∨ s.platform.memMap.kindAt a = .rom) :
    Inv (s.setMem (s.mem.writeWord a v)) where
  canonical := Memory.writeWord_wf a v h.canonical
  wholeWords b k hk := by
    simp only [State.setMem_mem]
    by_cases hb : b = a
    · subst hb
      rw [Memory.read?_writeWord _ _ _ hk, Memory.read?_writeWord _ _ _ (by decide)]; rfl
    · rw [Memory.read?_writeWord_other _ _ hb hk, Memory.read?_writeWord_other _ _ hb (by decide)]
      exact h.wholeWords b k hk
  onlyStorage b k hk hs := by
    by_cases hb : b = a
    · exact hb ▸ storage
    · rw [State.setMem_mem, Memory.read?_writeWord_other _ _ hb hk] at hs
      exact h.onlyStorage b k hk hs
  zeroEntry := h.zeroEntry

end Sys2Proof.Machine
end

