-- ==== Sys2Proof/Laws/Operands.lean ====
section
/-! SUPPORT. The operand forms as numbers, and the two ways each shared meaning of the arithmetic family
ends. -/

namespace Sys2Proof.Machine

/-! ### Operand forms (spec/30_encoding.md R100 to R103) -/

@[simp] theorem sext_toInt (imm : Imm) : (sext imm).toInt = imm.toInt :=
  BitVec.toInt_signExtend_of_le (by decide)

@[simp] theorem zext_toNat (imm : Imm) : (zext imm).toNat = imm.toNat := by
  simp only [zext, BitVec.toNat_setWidth]; omega

@[simp] theorem sext_getLsbD (imm : Imm) {k : Nat} (hk : k < 32) :
    (sext imm).getLsbD k = imm.getLsbD (min k 15) := by
  simp only [sext, BitVec.getLsbD_signExtend, hk, decide_true, Bool.true_and]
  split
  · congr 1; omega
  · rw [BitVec.msb_eq_getLsbD_last]; congr 1; omega

@[simp] theorem zext_getLsbD (imm : Imm) (k : Nat) : (zext imm).getLsbD k = imm.getLsbD k := by
  by_cases h : k < 32
  · simp [zext, h]
  · simp [zext, h, BitVec.getLsbD_of_ge imm k (by omega)]

@[simp] theorem shiftOfWord_eq (v : Word) : shiftOfWord v = v.toNat % 32 := by simp [shiftOfWord]

@[simp] theorem shiftOfImm_eq (imm : Imm) : shiftOfImm imm = imm.toNat % 32 := by simp [shiftOfImm]

theorem high_eq (imm : Imm) : high imm = BitVec.ofNat 32 (imm.toNat * 65536) := by
  have h : (imm ++ 0#16 : BitVec (16 + 16)).toNat = imm.toNat * 65536 := by
    rw [BitVec.toNat_append]; simp [Nat.shiftLeft_eq]
  apply BitVec.eq_of_toNat_eq
  exact h.trans (by have := imm.isLt; simp only [BitVec.toNat_ofNat]; omega)

/-! ### Shifts as arithmetic (spec/41_bitwise.md R177, R179, R181) -/

theorem shiftLeft_eq (a : Word) (n : Nat) : shiftLeft a n = BitVec.ofNat 32 (a.toNat * 2 ^ n) := by
  apply BitVec.eq_of_toNat_eq
  simp [shiftLeft, Nat.shiftLeft_eq]

theorem shiftRight_eq (a : Word) (n : Nat) : shiftRight a n = BitVec.ofNat 32 (a.toNat / 2 ^ n) := by
  apply BitVec.eq_of_toNat_eq
  simp only [shiftRight, BitVec.toNat_ushiftRight, Nat.shiftRight_eq_div_pow, BitVec.toNat_ofNat]
  exact (Nat.mod_eq_of_lt ((Nat.div_le_self _ _).trans_lt a.isLt)).symm

theorem shiftRightArith_eq (a : Word) (n : Nat) :
    shiftRightArith a n = BitVec.ofInt 32 (a.toInt / 2 ^ n) := by
  simp [shiftRightArith, BitVec.sshiftRight, Int.shiftRight_eq_div_pow]

/-! ### Addresses (20_memory.md R68, 43_branch.md R225) -/

theorem addrOfWord_toNat (v : Word) : (addrOfWord v).toNat = v.toNat % 1048576 := by
  simp [addrOfWord]

theorem branchTarget_toNat (base : BranchBase) (pc off : Addr) :
    ((branchTarget base pc off).toNat : Int) = branchSum base pc off % 1048576 := by
  simp only [branchTarget, BitVec.toNat_ofInt]
  omega

/-- The bits R68 ignores are zero exactly when the effective address is a word address. -/
theorem beyondSpace_eq_false {ea : Word} : beyondSpace ea = false ↔ ea.toNat < 1048576 := by
  have := ea.isLt
  simp only [beyondSpace, bne_eq_false_iff_eq, ← BitVec.toNat_inj, BitVec.extractLsb'_toNat,
    BitVec.toNat_ofNat, Nat.shiftRight_eq_div_pow]
  omega

theorem State.accessing_of {base : Word} {off : Addr} {s : State} {access : Result}
    (h : Reachable base off s) : s.accessing (effectiveAddress base off) access = access := by
  have h : (s.platform.eaHighBits == .refuse && beyondSpace (effectiveAddress base off)) = false := by
    rcases h with h | h
    · simp [h]
    · rw [beyondSpace_eq_false.2 h, Bool.and_false]
  simp only [State.accessing, h]; rfl

theorem State.accessing_refused {base : Word} {off : Addr} {s : State} {access : Result}
    (h : ¬ Reachable base off s) : s.accessing (effectiveAddress base off) access =
      .fault (.highAddress (effectiveAddress base off)) := by
  have h : (s.platform.eaHighBits == .refuse && beyondSpace (effectiveAddress base off)) = true := by
    simp only [Reachable, not_or, ← beyondSpace_eq_false] at h
    cases he : s.platform.eaHighBits <;> simp_all
  simp only [State.accessing, h]; rfl

/-- An access ends in a next state only where the effective address is one the machine accesses. -/
theorem State.accessing_eq_next {base : Word} {off : Addr} {s t : State} {access : Result}
    (h : s.accessing (effectiveAddress base off) access = .next t) :
    Reachable base off s ∧ access = .next t := by
  by_cases hr : Reachable base off s
  · rw [State.accessing_of hr] at h; exact ⟨hr, h⟩
  · rw [State.accessing_refused hr] at h; cases h

/-! ### Branches (43_branch.md R225, R226) -/

/-- A taken branch whose sum stays in the address space, or wraps, goes to its target. -/
theorem State.branchTo_of {off : Addr} {s : State}
    (h : s.platform.pcWrap = .wrap ∨ (0 ≤ branchSum s.platform.branchBase s.pc off ∧
      branchSum s.platform.branchBase s.pc off < 1048576)) :
    s.branchTo off = .next (s.setPc (branchTarget s.platform.branchBase s.pc off)) := by
  unfold State.branchTo
  rw [if_neg]
  rcases h with h | h
  · simp [h]
  · simp only [Bool.and_eq_true, Bool.or_eq_true, decide_eq_true_eq]
    omega

theorem State.branchTo_refused {off : Addr} {s : State} (hp : s.platform.pcWrap = .refuse)
    (h : branchSum s.platform.branchBase s.pc off < 0 ∨
      1048576 ≤ branchSum s.platform.branchBase s.pc off) :
    s.branchTo off = .refused (.pastLastAddress s.pc) := by
  unfold State.branchTo
  rw [if_pos]
  simp only [hp, Bool.and_eq_true, Bool.or_eq_true, decide_eq_true_eq]
  exact ⟨rfl, by omega⟩

/-- A taken branch that ends in a next state goes to its target. -/
theorem State.branchTo_eq_next {off : Addr} {s t : State} (h : s.branchTo off = .next t) :
    t = s.setPc (branchTarget s.platform.branchBase s.pc off) := by
  unfold State.branchTo at h
  split at h
  · cases h
  · cases h; rfl

/-! ### The two ways an arithmetic instruction ends (40_arithmetic.md R130, R153, R154) -/

theorem State.signedArith_fits {rd : Reg} {r : Int} {s : State} (lo : -2147483648 ≤ r)
    (hi : r ≤ 2147483647) : s.signedArith rd r = s.finish rd (to32 r) := by
  have h : signedOverflow r = false := by simp [signedOverflow, lo, hi]
  simp only [State.signedArith, h]; rfl

theorem State.signedArith_overflows {rd : Reg} {r : Int} {s : State}
    (h : r < -2147483648 ∨ 2147483647 < r) : s.signedArith rd r = s.arithTrap rd .overflow := by
  have h : signedOverflow r = true := by simpa [signedOverflow] using h
  simp only [State.signedArith, h]; rfl

theorem State.unsignedArith_fits {rd : Reg} {r : Int} {s : State} (lo : 0 ≤ r)
    (hi : r ≤ 4294967295) : s.unsignedArith rd r = s.finish rd (to32 r) := by
  have h : unsignedOverflow r = false := by simp [unsignedOverflow, lo, hi]
  simp only [State.unsignedArith, h]; rfl

theorem State.unsignedArith_overflows {rd : Reg} {r : Int} {s : State}
    (h : r < 0 ∨ 4294967295 < r) : s.unsignedArith rd r = s.arithTrap rd .overflow := by
  have h : unsignedOverflow r = true := by simpa [unsignedOverflow] using h
  simp only [State.unsignedArith, h]; rfl

theorem State.divide_by_nonzero {rd : Reg} {b v : Word} {s : State} (h : b ≠ 0#32) :
    s.divide rd b v = s.finish rd v := by
  have h : zeroDivisor b = false := by simpa [zeroDivisor] using h
  simp only [State.divide, h]; rfl

theorem State.divide_by_zero {rd : Reg} {v : Word} {s : State} :
    s.divide rd 0#32 v = s.arithTrap rd .divideByZero := rfl

/-- A signed division is the plain one, but for -2^31 by -1 where that is refused (D11). -/
theorem State.signedDivide_of {rd : Reg} {a b v : Word} {s : State}
    (h : s.platform.divMinNeg1 = .wrap ∨ a ≠ 0x80000000#32 ∨ b ≠ 0xFFFFFFFF#32) :
    s.signedDivide rd a b v = s.divide rd b v := by
  have h : (s.platform.divMinNeg1 == .refuse && minByMinusOne a b) = false := by
    rcases h with h | h | h
    · simp [h]
    · simp [minByMinusOne, h]
    · simp [minByMinusOne, h]
  simp only [State.signedDivide, h]; rfl

theorem State.signedDivide_refused {rd : Reg} {v : Word} {s : State}
    (h : s.platform.divMinNeg1 = .refuse) :
    s.signedDivide rd 0x80000000#32 0xFFFFFFFF#32 v = .refused .divideMinByMinusOne := by
  simp [State.signedDivide, h, minByMinusOne]

/-! ### Memory instructions: which way the map sends them (20_memory.md R62, R63, R67, R77) -/

theorem State.memRead_storage {a : Addr} {s : State}
    (h : s.platform.memMap.kindAt a = .ram ∨ s.platform.memMap.kindAt a = .rom) :
    s.memRead a = .ok (s.mem.word a, s) := by
  rcases h with h | h <;> simp [State.memRead, h]

theorem State.memRead_device {a : Addr} {s : State} (h : s.platform.memMap.kindAt a = .device) :
    s.memRead a = .ok (s.draw, (s.logDevice (.read a s.draw)).drawn) := by
  simp [State.memRead, h]

theorem State.memRead_absent {a : Addr} {s : State} (h : s.platform.memMap.kindAt a = .absent) :
    s.memRead a = .error (.absentAddress a) := by
  simp [State.memRead, h]

theorem State.memWrite_ram {a : Addr} {v : Word} {s : State}
    (h : s.platform.memMap.kindAt a = .ram) :
    s.memWrite a v = .ok ((s.setMem (s.mem.writeWord a v)).noteStore a) := by
  simp [State.memWrite, h]

theorem State.memWrite_rom {a : Addr} {v : Word} {s : State}
    (h : s.platform.memMap.kindAt a = .rom) : s.memWrite a v = .error (.romStore a) := by
  simp [State.memWrite, h]

theorem State.memWrite_device {a : Addr} {v : Word} {s : State}
    (h : s.platform.memMap.kindAt a = .device) : s.memWrite a v = .ok (s.logDevice (.write a v)) := by
  simp [State.memWrite, h]

theorem State.memWrite_absent {a : Addr} {v : Word} {s : State}
    (h : s.platform.memMap.kindAt a = .absent) : s.memWrite a v = .error (.absentAddress a) := by
  simp [State.memWrite, h]

/-! ### The mode check of the special instructions (60_exceptions.md R291) -/

theorem State.inUserMode_eq_false {s : State} : s.inUserMode = false ↔ s.ku = s.platform.kuKernel := by
  simp [State.inUserMode]

theorem State.inUserMode_eq_true {s : State} : s.inUserMode = true ↔ s.ku ≠ s.platform.kuKernel := by
  simp [State.inUserMode]

theorem State.privilegeFault_eq_false {s : State} : s.privilegeFault = false ↔ MayUseSpecials s := by
  cases hp : s.platform.userMode <;> simp [State.privilegeFault, State.inUserMode, MayUseSpecials, hp]

theorem State.refusesStep_eq_false {s : State} : s.refusesStep = false ↔ MayStep s := by
  cases hp : s.platform.userMode <;> simp [State.refusesStep, State.inUserMode, MayStep, hp]

theorem State.privileged_allowed {s : State} {effect : Result} (h : MayUseSpecials s) :
    s.privileged effect = effect := by
  have h := State.privilegeFault_eq_false.2 h
  simp only [State.privileged, h]; rfl

theorem State.privileged_denied {s : State} {effect : Result} (hk : s.ku ≠ s.platform.kuKernel)
    (hp : s.platform.userMode = .gpf) : s.privileged effect = s.trap .generalProtection := by
  have h : s.privilegeFault = true := by simp [State.privilegeFault, State.inUserMode, hk, hp]
  simp only [State.privileged, h]; rfl

end Sys2Proof.Machine
end

