-- ==== Sys2Proof/Laws/Exec.lean ====
section
/-! SUPPORT. What an instruction can do, said once: every next state of `exec` is one of the eleven of
`Effect`; and what a step can do: one of the three of `step_cases`. -/

namespace Sys2Proof.Machine

variable {s t : State}

/-- The ways an instruction executed in `s` can end in a next state. -/
inductive Effect (s : State) : Instr → State → Prop
  /-- A register is written; nothing else. -/
  | retire (i : Instr) (rd : Reg) (v : Word) : Effect s i (s.retire rd v)
  /-- An exception is taken. -/
  | raise (i : Instr) (c : Cause)
      (why : c = .generalProtection → s.privilegeFault = true) (target : HasTarget s) :
      Effect s i (s.raise c)
  /-- An arithmetic exception is taken by an instruction with destination `rd` (`EXC_RD`). -/
  | arithRaise (i : Instr) (rd : Reg) (c : Cause) (why : c = .overflow ∨ c = .divideByZero)
      (target : HasTarget s) : Effect s i ((s.spoil rd).raise c)
  /-- A jump or branch. -/
  | jump (i : Instr) (target : Addr) : Effect s i (s.setPc target)
  /-- A jump that saves the address of the next instruction. -/
  | link (i : Instr) (target : Addr) : Effect s i (s.link target)
  /-- `lw` of a device word. -/
  | deviceLoad (rd rs : Reg) (off : Addr)
      (device : s.platform.memMap.kindAt (accessAddress (s.reg rs) off) = .device) :
      Effect s (.lw rd rs off)
        ((s.logDevice (.read (accessAddress (s.reg rs) off) s.draw)).drawn.retire rd s.draw)
  /-- `sw` to ram. -/
  | store (rd rs : Reg) (off : Addr)
      (ram : s.platform.memMap.kindAt (accessAddress (s.reg rs) off) = .ram) :
      Effect s (.sw rd rs off)
        ((s.setMem (s.mem.writeWord (accessAddress (s.reg rs) off) (s.reg rd))).noteStore
          (accessAddress (s.reg rs) off)).advance
  /-- `sw` to a device word. -/
  | deviceStore (rd rs : Reg) (off : Addr)
      (device : s.platform.memMap.kindAt (accessAddress (s.reg rs) off) = .device) :
      Effect s (.sw rd rs off)
        (s.logDevice (.write (accessAddress (s.reg rs) off) (s.reg rd))).advance
  /-- `movgs` to a special register it may write. -/
  | setSpecial (n rs : Reg) (k : Special) (allowed : s.privilegeFault = false)
      (named : s.platform.spr.named? n = some k) (writable : s.platform.spr.writable k = true) :
      Effect s (.movgs n rs) (s.setSpecial k (s.reg rs)).advance
  /-- `movsg` of a special register. -/
  | readSpecial (rd n : Reg) (k : Special) (allowed : s.privilegeFault = false)
      (named : s.platform.spr.named? n = some k) :
      Effect s (.movsg rd n) ((s.afterRead k).retire rd (s.special k))
  /-- `rfe`. -/
  | returnFrom (allowed : s.privilegeFault = false) : Effect s .rfe s.returnFrom

/-! ### The shared meanings -/

theorem effect_finish {i : Instr} {rd : Reg} {v : Word} (h : s.finish rd v = .next t) :
    Effect s i t := by
  cases (State.inSequence_eq_next h).2; exact .retire i rd v

theorem effect_test {i : Instr} {rd : Reg} {holds : Bool} (h : s.test rd holds = .next t) :
    Effect s i t := effect_finish h

theorem effect_trap {i : Instr} {c : Cause} (h : s.trap c = .next t)
    (why : c = .generalProtection → s.privilegeFault = true) : Effect s i t := by
  obtain ⟨ht, rfl⟩ := State.trap_eq_next h
  exact .raise i c why ht

theorem effect_arithTrap {i : Instr} {rd : Reg} {c : Cause} (h : s.arithTrap rd c = .next t)
    (why : c = .overflow ∨ c = .divideByZero) : Effect s i t := by
  obtain ⟨ht, rfl⟩ := State.trap_eq_next h
  exact .arithRaise i rd c why ((hasTarget_spoil rd).1 ht)

theorem effect_signedArith {i : Instr} {rd : Reg} {r : Int} (h : s.signedArith rd r = .next t) :
    Effect s i t := by
  unfold State.signedArith at h
  split at h
  · exact effect_arithTrap h (.inl rfl)
  · exact effect_finish h

theorem effect_unsignedArith {i : Instr} {rd : Reg} {r : Int} (h : s.unsignedArith rd r = .next t) :
    Effect s i t := by
  unfold State.unsignedArith at h
  split at h
  · exact effect_arithTrap h (.inl rfl)
  · exact effect_finish h

theorem effect_divide {i : Instr} {rd : Reg} {b v : Word} (h : s.divide rd b v = .next t) :
    Effect s i t := by
  unfold State.divide at h
  split at h
  · exact effect_arithTrap h (.inr rfl)
  · exact effect_finish h

theorem effect_signedDivide {i : Instr} {rd : Reg} {a b v : Word}
    (h : s.signedDivide rd a b v = .next t) : Effect s i t := by
  unfold State.signedDivide at h
  split at h
  · cases h
  · exact effect_divide h

theorem effect_branch {i : Instr} {taken : Bool} {off : Addr} (h : s.branch taken off = .next t) :
    Effect s i t := by
  unfold State.branch at h
  split at h
  · exact State.branchTo_eq_next h ▸ .jump i _
  · cases (State.inSequence_eq_next h).2; exact .jump i _

theorem effect_link {i : Instr} {target : Addr}
    (h : s.inSequence (.next (s.link target)) = .next t) : Effect s i t := by
  cases (State.inSequence_eq_next h).2; exact .link i target

theorem effect_execLw {rd rs : Reg} {off : Addr} (h : execLw rd rs off s = .next t) :
    Effect s (.lw rd rs off) t := by
  have h := (State.inSequence_eq_next (State.accessing_eq_next h).2).2
  simp only [State.loadTo] at h
  split at h
  · rename_i hm
    cases h
    rcases State.memRead_cases hm with ⟨-, rfl, rfl⟩ | ⟨hk, rfl, rfl⟩
    · exact .retire _ rd _
    · exact .deviceLoad rd rs off hk
  · cases h

theorem effect_execSw {rd rs : Reg} {off : Addr} (h : execSw rd rs off s = .next t) :
    Effect s (.sw rd rs off) t := by
  have h := (State.inSequence_eq_next (State.accessing_eq_next h).2).2
  simp only [State.storeTo] at h
  split at h
  · rename_i hm
    cases h
    rcases State.memWrite_cases hm with ⟨hk, rfl⟩ | ⟨hk, rfl⟩
    · exact .store rd rs off hk
    · exact .deviceStore rd rs off hk
  · cases h

/-- A privileged instruction takes the general protection exception, or has its effect. -/
theorem privileged_eq_next {effect : Result} (h : s.privileged effect = .next t) :
    (s.privilegeFault = true ∧ s.trap .generalProtection = .next t) ∨
    (s.privilegeFault = false ∧ effect = .next t) := by
  unfold State.privileged at h
  split at h
  · rename_i hp; exact .inl ⟨hp, h⟩
  · rename_i hp; exact .inr ⟨by simpa using hp, h⟩

theorem effect_execMovgs {n rs : Reg} (h : execMovgs n rs s = .next t) :
    Effect s (.movgs n rs) t := by
  rcases privileged_eq_next h with ⟨hp, h⟩ | ⟨hp, h⟩
  · exact effect_trap h fun _ => hp
  · unfold State.moveToSpecial at h
    split at h
    · cases h
    · rename_i k hk
      split at h
      · rename_i hw
        cases (State.inSequence_eq_next h).2
        exact .setSpecial n rs k hp hk hw
      · cases h

theorem effect_execMovsg {rd n : Reg} (h : execMovsg rd n s = .next t) :
    Effect s (.movsg rd n) t := by
  rcases privileged_eq_next h with ⟨hp, h⟩ | ⟨hp, h⟩
  · exact effect_trap h fun _ => hp
  · unfold State.moveFromSpecial at h
    split at h
    · cases h
    · rename_i k hk
      cases (State.inSequence_eq_next h).2
      exact .readSpecial rd n k hp hk

theorem effect_execRfe (h : execRfe s = .next t) : Effect s .rfe t := by
  rcases privileged_eq_next h with ⟨hp, h⟩ | ⟨hp, h⟩
  · exact effect_trap h fun _ => hp
  · cases h
    exact .returnFrom hp

/-! ### Every instruction -/

/-- Everything an instruction can do when it ends in a next state. -/
theorem exec_effect {i : Instr} (h : exec i s = .next t) : Effect s i t := by
  cases i with
  | add _ _ _ => exact effect_signedArith h
  | addu _ _ _ => exact effect_unsignedArith h
  | sub _ _ _ => exact effect_signedArith h
  | subu _ _ _ => exact effect_unsignedArith h
  | mult _ _ _ => exact effect_signedArith h
  | multu _ _ _ => exact effect_unsignedArith h
  | div _ _ _ => exact effect_signedDivide h
  | divu _ _ _ => exact effect_divide h
  | rem _ _ _ => exact effect_signedDivide h
  | remu _ _ _ => exact effect_divide h
  | sll _ _ _ => exact effect_finish h
  | and _ _ _ => exact effect_finish h
  | srl _ _ _ => exact effect_finish h
  | or _ _ _ => exact effect_finish h
  | sra _ _ _ => exact effect_finish h
  | xor _ _ _ => exact effect_finish h
  | slt _ _ _ => exact effect_test h
  | sltu _ _ _ => exact effect_test h
  | sgt _ _ _ => exact effect_test h
  | sgtu _ _ _ => exact effect_test h
  | sle _ _ _ => exact effect_test h
  | sleu _ _ _ => exact effect_test h
  | sge _ _ _ => exact effect_test h
  | sgeu _ _ _ => exact effect_test h
  | seq _ _ _ => exact effect_test h
  | sequ _ _ _ => exact effect_test h
  | sne _ _ _ => exact effect_test h
  | sneu _ _ _ => exact effect_test h
  | addi _ _ _ => exact effect_signedArith h
  | addui _ _ _ => exact effect_unsignedArith h
  | subi _ _ _ => exact effect_signedArith h
  | subui _ _ _ => exact effect_unsignedArith h
  | multi _ _ _ => exact effect_signedArith h
  | multui _ _ _ => exact effect_unsignedArith h
  | divi _ _ _ => exact effect_signedDivide h
  | divui _ _ _ => exact effect_divide h
  | remi _ _ _ => exact effect_signedDivide h
  | remui _ _ _ => exact effect_divide h
  | slli _ _ _ => exact effect_finish h
  | andi _ _ _ => exact effect_finish h
  | srli _ _ _ => exact effect_finish h
  | ori _ _ _ => exact effect_finish h
  | srai _ _ _ => exact effect_finish h
  | xori _ _ _ => exact effect_finish h
  | slti _ _ _ => exact effect_test h
  | sltui _ _ _ => exact effect_test h
  | sgti _ _ _ => exact effect_test h
  | sgtui _ _ _ => exact effect_test h
  | slei _ _ _ => exact effect_test h
  | sleui _ _ _ => exact effect_test h
  | sgei _ _ _ => exact effect_test h
  | sgeui _ _ _ => exact effect_test h
  | seqi _ _ _ => exact effect_test h
  | sequi _ _ _ => exact effect_test h
  | snei _ _ _ => exact effect_test h
  | sneui _ _ _ => exact effect_test h
  | lhi _ _ => exact effect_finish h
  | la _ _ => exact effect_finish h
  | j _ => cases h; exact .jump _ _
  | jal _ => exact effect_link h
  | jr _ => cases h; exact .jump _ _
  | jalr _ => exact effect_link h
  | beqz _ _ => exact effect_branch h
  | bnez _ _ => exact effect_branch h
  | lw _ _ _ => exact effect_execLw h
  | sw _ _ _ => exact effect_execSw h
  | movgs _ _ => exact effect_execMovgs h
  | movsg _ _ => exact effect_execMovsg h
  | brk => exact effect_trap h nofun
  | syscall => exact effect_trap h nofun
  | rfe => exact effect_execRfe h

/-! ### The step -/

/-- The lines at the start of a step, in the words of the claims. -/
theorem drivenLines_eq (s : State) : s.drivenLines = linesAt s := by
  cases h : s.platform.irqModel <;> simp [State.drivenLines, linesAt, h]

theorem sampleLines_eq (s : State) : s.sampleLines = withLines s := by
  simp only [State.sampleLines, withLines, drivenLines_eq]

theorem takesInterrupt_eq_false : (withLines s).takesInterrupt = false ↔ NoInterrupt s := by
  simp only [State.takesInterrupt, State.pending, withLines, NoInterrupt, Bool.and_eq_false_iff,
    bne_eq_false_iff_eq]

/-- The lines do not change which word lies at `pc`. -/
theorem wordAtPc_withLines {w : Word} : WordAtPc w (withLines s) ↔ WordAtPc w s := Iff.rfl

/-- The step: the interrupt check with this step's lines, then fetch, decode and execute. -/
theorem step_eq (s : State) : step s =
    if (withLines s).takesInterrupt then (withLines s).takeInterrupt
    else (withLines s).fetchAndExec := by
  show s.cycle = _
  rw [State.cycle, sampleLines_eq]

/-- A step without interrupt that the mode allows, at a word that may be fetched. -/
theorem step_of_word {w : Word} (hn : NoInterrupt s) (hm : MayStep s) (hw : WordAtPc w s) :
    step s = (withLines s).execWord w := by
  have hm : (withLines s).refusesStep = false := State.refusesStep_eq_false.2 hm
  have hw : (withLines s).fetch = .ok w := State.fetch_eq_ok.2 hw
  rw [step_eq, takesInterrupt_eq_false.2 hn]
  simp [State.fetchAndExec, hm, hw]

/-- Everything a step can do when it ends in a next state: interrupt entry; the general protection
exception of a reserved word; or the effect of the instruction at `pc`. -/
theorem step_cases (h : step s = .next t) :
    ((withLines s).takesInterrupt = true ∧ HasTarget s ∧ t = (withLines s).interrupt) ∨
    (NoInterrupt s ∧ MayStep s ∧ ∃ w, WordAtPc w s ∧
      ((∃ e, s.decode w = .error e ∧ s.platform.reserved = .gpf ∧ HasTarget s ∧
          t = (withLines s).raise .generalProtection) ∨
        ∃ i, s.decode w = .ok i ∧ exec i (withLines s) = .next t)) := by
  rw [step_eq] at h
  by_cases hi : (withLines s).takesInterrupt = true
  · rw [if_pos hi] at h
    exact .inl ⟨hi, State.entering_eq_next h⟩
  · rw [if_neg hi] at h
    refine .inr ⟨takesInterrupt_eq_false.1 (by simpa using hi), ?_⟩
    simp only [State.fetchAndExec] at h
    split at h
    · cases h
    · rename_i hm
      refine ⟨(State.refusesStep_eq_false (s := withLines s)).1 (by simpa using hm), ?_⟩
      split at h
      · cases h
      · rename_i w hw
        refine ⟨w, wordAtPc_withLines.1 (State.fetch_eq_ok.1 hw), ?_⟩
        simp only [State.execWord] at h
        split at h
        · rename_i e he
          simp only [State.reservedWord] at h
          split at h
          · cases h
          · rename_i hr
            exact .inl ⟨e, he, hr, State.trap_eq_next h⟩
        · rename_i i hd
          exact .inr ⟨i, hd, h⟩

end Sys2Proof.Machine
end

