-- ==== Sys2Proof/Laws/PerInstr.lean ====
section
/-! SUPPORT. Families of statements made once per instruction. -/

namespace Sys2Proof.Laws

/-! ### The masks of the opcode table keep the constant fields (spec/30_encoding.md R93) -/

theorem register_mask (op rd rs func rt : BitVec 4) :
    encodeR op rd rs func rt &&& 0xF00FFFF0#32 = encodeR op 0#4 0#4 func 0#4 := by
  refine BitVec.eq_of_getLsbD_eq fun i hi => ?_
  simp only [encodeR, BitVec.getLsbD_and, BitVec.getLsbD_append]
  interval_cases i <;> simp

theorem immediate_mask (op rd rs func : BitVec 4) (imm : Imm) :
    encodeI op rd rs func imm &&& 0xF00F0000#32 = encodeI op 0#4 0#4 func 0#16 := by
  refine BitVec.eq_of_getLsbD_eq fun i hi => ?_
  simp only [encodeI, BitVec.getLsbD_and, BitVec.getLsbD_append]
  interval_cases i <;> simp

theorem loadHigh_mask (op rd rs func : BitVec 4) (imm : Imm) :
    encodeI op rd rs func imm &&& 0xF0FF0000#32 = encodeI op 0#4 rs func 0#16 := by
  refine BitVec.eq_of_getLsbD_eq fun i hi => ?_
  simp only [encodeI, BitVec.getLsbD_and, BitVec.getLsbD_append]
  interval_cases i <;> simp

theorem specialMove_mask (op rd rs func : BitVec 4) (imm : Imm) :
    encodeI op rd rs func imm &&& 0xF00FFFFF#32 = encodeI op 0#4 0#4 func imm := by
  refine BitVec.eq_of_getLsbD_eq fun i hi => ?_
  simp only [encodeI, BitVec.getLsbD_and, BitVec.getLsbD_append]
  interval_cases i <;> simp

theorem jump_mask (op rd rs : BitVec 4) (addr : Addr) :
    encodeJ op rd rs addr &&& 0xFFF00000#32 = encodeJ op rd rs 0#20 := by
  refine BitVec.eq_of_getLsbD_eq fun i hi => ?_
  simp only [encodeJ, BitVec.getLsbD_and, BitVec.getLsbD_append]
  interval_cases i <;> simp

theorem registerJump_mask (op rd rs : BitVec 4) (addr : Addr) :
    encodeJ op rd rs addr &&& 0xFF0FFFFF#32 = encodeJ op rd 0#4 addr := by
  refine BitVec.eq_of_getLsbD_eq fun i hi => ?_
  simp only [encodeJ, BitVec.getLsbD_and, BitVec.getLsbD_append]
  interval_cases i <;> simp

theorem branch_mask (op rd rs : BitVec 4) (addr : Addr) :
    encodeJ op rd rs addr &&& 0xFF000000#32 = encodeJ op rd 0#4 0#20 := by
  refine BitVec.eq_of_getLsbD_eq fun i hi => ?_
  simp only [encodeJ, BitVec.getLsbD_and, BitVec.getLsbD_append]
  interval_cases i <;> simp

theorem memory_mask (op rd rs : BitVec 4) (addr : Addr) :
    encodeJ op rd rs addr &&& 0xF0000000#32 = encodeJ op 0#4 0#4 0#20 := by
  refine BitVec.eq_of_getLsbD_eq fun i hi => ?_
  simp only [encodeJ, BitVec.getLsbD_and, BitVec.getLsbD_append]
  interval_cases i <;> simp

theorem loadAddress_mask (op rd rs : BitVec 4) (addr : Addr) :
    encodeJ op rd rs addr &&& 0xF0F00000#32 = encodeJ op 0#4 rs 0#20 := by
  refine BitVec.eq_of_getLsbD_eq fun i hi => ?_
  simp only [encodeJ, BitVec.getLsbD_and, BitVec.getLsbD_append]
  interval_cases i <;> simp

/-- The word of the instruction fits the row of spec/opcode_table.json that has its mnemonic. -/
def RowMatch.Statement (i : Instr) : Prop :=
  ∃ row ∈ opcodeRows, row.mnemonic = i.mnemonic ∧ encode i &&& row.mask = row.pattern

theorem RowMatch.add (rd : Reg) (rs : Reg) (rt : Reg) : RowMatch.Statement (.add rd rs rt) :=
  ⟨⟨"add", 0x00000000#32, 0xF00FFFF0#32⟩, by decide, rfl, (register_mask ..).trans (by decide)⟩

theorem RowMatch.addu (rd : Reg) (rs : Reg) (rt : Reg) : RowMatch.Statement (.addu rd rs rt) :=
  ⟨⟨"addu", 0x00010000#32, 0xF00FFFF0#32⟩, by decide, rfl, (register_mask ..).trans (by decide)⟩

theorem RowMatch.sub (rd : Reg) (rs : Reg) (rt : Reg) : RowMatch.Statement (.sub rd rs rt) :=
  ⟨⟨"sub", 0x00020000#32, 0xF00FFFF0#32⟩, by decide, rfl, (register_mask ..).trans (by decide)⟩

theorem RowMatch.subu (rd : Reg) (rs : Reg) (rt : Reg) : RowMatch.Statement (.subu rd rs rt) :=
  ⟨⟨"subu", 0x00030000#32, 0xF00FFFF0#32⟩, by decide, rfl, (register_mask ..).trans (by decide)⟩

theorem RowMatch.mult (rd : Reg) (rs : Reg) (rt : Reg) : RowMatch.Statement (.mult rd rs rt) :=
  ⟨⟨"mult", 0x00040000#32, 0xF00FFFF0#32⟩, by decide, rfl, (register_mask ..).trans (by decide)⟩

theorem RowMatch.multu (rd : Reg) (rs : Reg) (rt : Reg) : RowMatch.Statement (.multu rd rs rt) :=
  ⟨⟨"multu", 0x00050000#32, 0xF00FFFF0#32⟩, by decide, rfl, (register_mask ..).trans (by decide)⟩

theorem RowMatch.div (rd : Reg) (rs : Reg) (rt : Reg) : RowMatch.Statement (.div rd rs rt) :=
  ⟨⟨"div", 0x00060000#32, 0xF00FFFF0#32⟩, by decide, rfl, (register_mask ..).trans (by decide)⟩

theorem RowMatch.divu (rd : Reg) (rs : Reg) (rt : Reg) : RowMatch.Statement (.divu rd rs rt) :=
  ⟨⟨"divu", 0x00070000#32, 0xF00FFFF0#32⟩, by decide, rfl, (register_mask ..).trans (by decide)⟩

theorem RowMatch.rem (rd : Reg) (rs : Reg) (rt : Reg) : RowMatch.Statement (.rem rd rs rt) :=
  ⟨⟨"rem", 0x00080000#32, 0xF00FFFF0#32⟩, by decide, rfl, (register_mask ..).trans (by decide)⟩

theorem RowMatch.remu (rd : Reg) (rs : Reg) (rt : Reg) : RowMatch.Statement (.remu rd rs rt) :=
  ⟨⟨"remu", 0x00090000#32, 0xF00FFFF0#32⟩, by decide, rfl, (register_mask ..).trans (by decide)⟩

theorem RowMatch.sll (rd : Reg) (rs : Reg) (rt : Reg) : RowMatch.Statement (.sll rd rs rt) :=
  ⟨⟨"sll", 0x000A0000#32, 0xF00FFFF0#32⟩, by decide, rfl, (register_mask ..).trans (by decide)⟩

theorem RowMatch.and (rd : Reg) (rs : Reg) (rt : Reg) : RowMatch.Statement (.and rd rs rt) :=
  ⟨⟨"and", 0x000B0000#32, 0xF00FFFF0#32⟩, by decide, rfl, (register_mask ..).trans (by decide)⟩

theorem RowMatch.srl (rd : Reg) (rs : Reg) (rt : Reg) : RowMatch.Statement (.srl rd rs rt) :=
  ⟨⟨"srl", 0x000C0000#32, 0xF00FFFF0#32⟩, by decide, rfl, (register_mask ..).trans (by decide)⟩

theorem RowMatch.or (rd : Reg) (rs : Reg) (rt : Reg) : RowMatch.Statement (.or rd rs rt) :=
  ⟨⟨"or", 0x000D0000#32, 0xF00FFFF0#32⟩, by decide, rfl, (register_mask ..).trans (by decide)⟩

theorem RowMatch.sra (rd : Reg) (rs : Reg) (rt : Reg) : RowMatch.Statement (.sra rd rs rt) :=
  ⟨⟨"sra", 0x000E0000#32, 0xF00FFFF0#32⟩, by decide, rfl, (register_mask ..).trans (by decide)⟩

theorem RowMatch.xor (rd : Reg) (rs : Reg) (rt : Reg) : RowMatch.Statement (.xor rd rs rt) :=
  ⟨⟨"xor", 0x000F0000#32, 0xF00FFFF0#32⟩, by decide, rfl, (register_mask ..).trans (by decide)⟩

theorem RowMatch.slt (rd : Reg) (rs : Reg) (rt : Reg) : RowMatch.Statement (.slt rd rs rt) :=
  ⟨⟨"slt", 0x20000000#32, 0xF00FFFF0#32⟩, by decide, rfl, (register_mask ..).trans (by decide)⟩

theorem RowMatch.sltu (rd : Reg) (rs : Reg) (rt : Reg) : RowMatch.Statement (.sltu rd rs rt) :=
  ⟨⟨"sltu", 0x20010000#32, 0xF00FFFF0#32⟩, by decide, rfl, (register_mask ..).trans (by decide)⟩

theorem RowMatch.sgt (rd : Reg) (rs : Reg) (rt : Reg) : RowMatch.Statement (.sgt rd rs rt) :=
  ⟨⟨"sgt", 0x20020000#32, 0xF00FFFF0#32⟩, by decide, rfl, (register_mask ..).trans (by decide)⟩

theorem RowMatch.sgtu (rd : Reg) (rs : Reg) (rt : Reg) : RowMatch.Statement (.sgtu rd rs rt) :=
  ⟨⟨"sgtu", 0x20030000#32, 0xF00FFFF0#32⟩, by decide, rfl, (register_mask ..).trans (by decide)⟩

theorem RowMatch.sle (rd : Reg) (rs : Reg) (rt : Reg) : RowMatch.Statement (.sle rd rs rt) :=
  ⟨⟨"sle", 0x20040000#32, 0xF00FFFF0#32⟩, by decide, rfl, (register_mask ..).trans (by decide)⟩

theorem RowMatch.sleu (rd : Reg) (rs : Reg) (rt : Reg) : RowMatch.Statement (.sleu rd rs rt) :=
  ⟨⟨"sleu", 0x20050000#32, 0xF00FFFF0#32⟩, by decide, rfl, (register_mask ..).trans (by decide)⟩

theorem RowMatch.sge (rd : Reg) (rs : Reg) (rt : Reg) : RowMatch.Statement (.sge rd rs rt) :=
  ⟨⟨"sge", 0x20060000#32, 0xF00FFFF0#32⟩, by decide, rfl, (register_mask ..).trans (by decide)⟩

theorem RowMatch.sgeu (rd : Reg) (rs : Reg) (rt : Reg) : RowMatch.Statement (.sgeu rd rs rt) :=
  ⟨⟨"sgeu", 0x20070000#32, 0xF00FFFF0#32⟩, by decide, rfl, (register_mask ..).trans (by decide)⟩

theorem RowMatch.seq (rd : Reg) (rs : Reg) (rt : Reg) : RowMatch.Statement (.seq rd rs rt) :=
  ⟨⟨"seq", 0x20080000#32, 0xF00FFFF0#32⟩, by decide, rfl, (register_mask ..).trans (by decide)⟩

theorem RowMatch.sequ (rd : Reg) (rs : Reg) (rt : Reg) : RowMatch.Statement (.sequ rd rs rt) :=
  ⟨⟨"sequ", 0x20090000#32, 0xF00FFFF0#32⟩, by decide, rfl, (register_mask ..).trans (by decide)⟩

theorem RowMatch.sne (rd : Reg) (rs : Reg) (rt : Reg) : RowMatch.Statement (.sne rd rs rt) :=
  ⟨⟨"sne", 0x200A0000#32, 0xF00FFFF0#32⟩, by decide, rfl, (register_mask ..).trans (by decide)⟩

theorem RowMatch.sneu (rd : Reg) (rs : Reg) (rt : Reg) : RowMatch.Statement (.sneu rd rs rt) :=
  ⟨⟨"sneu", 0x200B0000#32, 0xF00FFFF0#32⟩, by decide, rfl, (register_mask ..).trans (by decide)⟩

theorem RowMatch.addi (rd : Reg) (rs : Reg) (imm : Imm) : RowMatch.Statement (.addi rd rs imm) :=
  ⟨⟨"addi", 0x10000000#32, 0xF00F0000#32⟩, by decide, rfl, (immediate_mask ..).trans (by decide)⟩

theorem RowMatch.addui (rd : Reg) (rs : Reg) (imm : Imm) : RowMatch.Statement (.addui rd rs imm) :=
  ⟨⟨"addui", 0x10010000#32, 0xF00F0000#32⟩, by decide, rfl, (immediate_mask ..).trans (by decide)⟩

theorem RowMatch.subi (rd : Reg) (rs : Reg) (imm : Imm) : RowMatch.Statement (.subi rd rs imm) :=
  ⟨⟨"subi", 0x10020000#32, 0xF00F0000#32⟩, by decide, rfl, (immediate_mask ..).trans (by decide)⟩

theorem RowMatch.subui (rd : Reg) (rs : Reg) (imm : Imm) : RowMatch.Statement (.subui rd rs imm) :=
  ⟨⟨"subui", 0x10030000#32, 0xF00F0000#32⟩, by decide, rfl, (immediate_mask ..).trans (by decide)⟩

theorem RowMatch.multi (rd : Reg) (rs : Reg) (imm : Imm) : RowMatch.Statement (.multi rd rs imm) :=
  ⟨⟨"multi", 0x10040000#32, 0xF00F0000#32⟩, by decide, rfl, (immediate_mask ..).trans (by decide)⟩

theorem RowMatch.multui (rd : Reg) (rs : Reg) (imm : Imm) : RowMatch.Statement (.multui rd rs imm) :=
  ⟨⟨"multui", 0x10050000#32, 0xF00F0000#32⟩, by decide, rfl, (immediate_mask ..).trans (by decide)⟩

theorem RowMatch.divi (rd : Reg) (rs : Reg) (imm : Imm) : RowMatch.Statement (.divi rd rs imm) :=
  ⟨⟨"divi", 0x10060000#32, 0xF00F0000#32⟩, by decide, rfl, (immediate_mask ..).trans (by decide)⟩

theorem RowMatch.divui (rd : Reg) (rs : Reg) (imm : Imm) : RowMatch.Statement (.divui rd rs imm) :=
  ⟨⟨"divui", 0x10070000#32, 0xF00F0000#32⟩, by decide, rfl, (immediate_mask ..).trans (by decide)⟩

theorem RowMatch.remi (rd : Reg) (rs : Reg) (imm : Imm) : RowMatch.Statement (.remi rd rs imm) :=
  ⟨⟨"remi", 0x10080000#32, 0xF00F0000#32⟩, by decide, rfl, (immediate_mask ..).trans (by decide)⟩

theorem RowMatch.remui (rd : Reg) (rs : Reg) (imm : Imm) : RowMatch.Statement (.remui rd rs imm) :=
  ⟨⟨"remui", 0x10090000#32, 0xF00F0000#32⟩, by decide, rfl, (immediate_mask ..).trans (by decide)⟩

theorem RowMatch.slli (rd : Reg) (rs : Reg) (imm : Imm) : RowMatch.Statement (.slli rd rs imm) :=
  ⟨⟨"slli", 0x100A0000#32, 0xF00F0000#32⟩, by decide, rfl, (immediate_mask ..).trans (by decide)⟩

theorem RowMatch.andi (rd : Reg) (rs : Reg) (imm : Imm) : RowMatch.Statement (.andi rd rs imm) :=
  ⟨⟨"andi", 0x100B0000#32, 0xF00F0000#32⟩, by decide, rfl, (immediate_mask ..).trans (by decide)⟩

theorem RowMatch.srli (rd : Reg) (rs : Reg) (imm : Imm) : RowMatch.Statement (.srli rd rs imm) :=
  ⟨⟨"srli", 0x100C0000#32, 0xF00F0000#32⟩, by decide, rfl, (immediate_mask ..).trans (by decide)⟩

theorem RowMatch.ori (rd : Reg) (rs : Reg) (imm : Imm) : RowMatch.Statement (.ori rd rs imm) :=
  ⟨⟨"ori", 0x100D0000#32, 0xF00F0000#32⟩, by decide, rfl, (immediate_mask ..).trans (by decide)⟩

theorem RowMatch.srai (rd : Reg) (rs : Reg) (imm : Imm) : RowMatch.Statement (.srai rd rs imm) :=
  ⟨⟨"srai", 0x100E0000#32, 0xF00F0000#32⟩, by decide, rfl, (immediate_mask ..).trans (by decide)⟩

theorem RowMatch.xori (rd : Reg) (rs : Reg) (imm : Imm) : RowMatch.Statement (.xori rd rs imm) :=
  ⟨⟨"xori", 0x100F0000#32, 0xF00F0000#32⟩, by decide, rfl, (immediate_mask ..).trans (by decide)⟩

theorem RowMatch.slti (rd : Reg) (rs : Reg) (imm : Imm) : RowMatch.Statement (.slti rd rs imm) :=
  ⟨⟨"slti", 0x30000000#32, 0xF00F0000#32⟩, by decide, rfl, (immediate_mask ..).trans (by decide)⟩

theorem RowMatch.sltui (rd : Reg) (rs : Reg) (imm : Imm) : RowMatch.Statement (.sltui rd rs imm) :=
  ⟨⟨"sltui", 0x30010000#32, 0xF00F0000#32⟩, by decide, rfl, (immediate_mask ..).trans (by decide)⟩

theorem RowMatch.sgti (rd : Reg) (rs : Reg) (imm : Imm) : RowMatch.Statement (.sgti rd rs imm) :=
  ⟨⟨"sgti", 0x30020000#32, 0xF00F0000#32⟩, by decide, rfl, (immediate_mask ..).trans (by decide)⟩

theorem RowMatch.sgtui (rd : Reg) (rs : Reg) (imm : Imm) : RowMatch.Statement (.sgtui rd rs imm) :=
  ⟨⟨"sgtui", 0x30030000#32, 0xF00F0000#32⟩, by decide, rfl, (immediate_mask ..).trans (by decide)⟩

theorem RowMatch.slei (rd : Reg) (rs : Reg) (imm : Imm) : RowMatch.Statement (.slei rd rs imm) :=
  ⟨⟨"slei", 0x30040000#32, 0xF00F0000#32⟩, by decide, rfl, (immediate_mask ..).trans (by decide)⟩

theorem RowMatch.sleui (rd : Reg) (rs : Reg) (imm : Imm) : RowMatch.Statement (.sleui rd rs imm) :=
  ⟨⟨"sleui", 0x30050000#32, 0xF00F0000#32⟩, by decide, rfl, (immediate_mask ..).trans (by decide)⟩

theorem RowMatch.sgei (rd : Reg) (rs : Reg) (imm : Imm) : RowMatch.Statement (.sgei rd rs imm) :=
  ⟨⟨"sgei", 0x30060000#32, 0xF00F0000#32⟩, by decide, rfl, (immediate_mask ..).trans (by decide)⟩

theorem RowMatch.sgeui (rd : Reg) (rs : Reg) (imm : Imm) : RowMatch.Statement (.sgeui rd rs imm) :=
  ⟨⟨"sgeui", 0x30070000#32, 0xF00F0000#32⟩, by decide, rfl, (immediate_mask ..).trans (by decide)⟩

theorem RowMatch.seqi (rd : Reg) (rs : Reg) (imm : Imm) : RowMatch.Statement (.seqi rd rs imm) :=
  ⟨⟨"seqi", 0x30080000#32, 0xF00F0000#32⟩, by decide, rfl, (immediate_mask ..).trans (by decide)⟩

theorem RowMatch.sequi (rd : Reg) (rs : Reg) (imm : Imm) : RowMatch.Statement (.sequi rd rs imm) :=
  ⟨⟨"sequi", 0x30090000#32, 0xF00F0000#32⟩, by decide, rfl, (immediate_mask ..).trans (by decide)⟩

theorem RowMatch.snei (rd : Reg) (rs : Reg) (imm : Imm) : RowMatch.Statement (.snei rd rs imm) :=
  ⟨⟨"snei", 0x300A0000#32, 0xF00F0000#32⟩, by decide, rfl, (immediate_mask ..).trans (by decide)⟩

theorem RowMatch.sneui (rd : Reg) (rs : Reg) (imm : Imm) : RowMatch.Statement (.sneui rd rs imm) :=
  ⟨⟨"sneui", 0x300B0000#32, 0xF00F0000#32⟩, by decide, rfl, (immediate_mask ..).trans (by decide)⟩

theorem RowMatch.lhi (rd : Reg) (imm : Imm) : RowMatch.Statement (.lhi rd imm) :=
  ⟨⟨"lhi", 0x300E0000#32, 0xF0FF0000#32⟩, by decide, rfl, (loadHigh_mask ..).trans (by decide)⟩

theorem RowMatch.la (rd : Reg) (addr : Addr) : RowMatch.Statement (.la rd addr) :=
  ⟨⟨"la", 0xC0000000#32, 0xF0F00000#32⟩, by decide, rfl, (loadAddress_mask ..).trans (by decide)⟩

theorem RowMatch.j (addr : Addr) : RowMatch.Statement (.j addr) :=
  ⟨⟨"j", 0x40000000#32, 0xFFF00000#32⟩, by decide, rfl, (jump_mask ..).trans (by decide)⟩

theorem RowMatch.jal (addr : Addr) : RowMatch.Statement (.jal addr) :=
  ⟨⟨"jal", 0x60000000#32, 0xFFF00000#32⟩, by decide, rfl, (jump_mask ..).trans (by decide)⟩

theorem RowMatch.jr (rs : Reg) : RowMatch.Statement (.jr rs) :=
  ⟨⟨"jr", 0x50000000#32, 0xFF0FFFFF#32⟩, by decide, rfl, (registerJump_mask ..).trans (by decide)⟩

theorem RowMatch.jalr (rs : Reg) : RowMatch.Statement (.jalr rs) :=
  ⟨⟨"jalr", 0x70000000#32, 0xFF0FFFFF#32⟩, by decide, rfl, (registerJump_mask ..).trans (by decide)⟩

theorem RowMatch.beqz (rs : Reg) (off : Addr) : RowMatch.Statement (.beqz rs off) :=
  ⟨⟨"beqz", 0xA0000000#32, 0xFF000000#32⟩, by decide, rfl, (branch_mask ..).trans (by decide)⟩

theorem RowMatch.bnez (rs : Reg) (off : Addr) : RowMatch.Statement (.bnez rs off) :=
  ⟨⟨"bnez", 0xB0000000#32, 0xFF000000#32⟩, by decide, rfl, (branch_mask ..).trans (by decide)⟩

theorem RowMatch.lw (rd : Reg) (rs : Reg) (off : Addr) : RowMatch.Statement (.lw rd rs off) :=
  ⟨⟨"lw", 0x80000000#32, 0xF0000000#32⟩, by decide, rfl, (memory_mask ..).trans (by decide)⟩

theorem RowMatch.sw (rd : Reg) (rs : Reg) (off : Addr) : RowMatch.Statement (.sw rd rs off) :=
  ⟨⟨"sw", 0x90000000#32, 0xF0000000#32⟩, by decide, rfl, (memory_mask ..).trans (by decide)⟩

theorem RowMatch.movgs (rd : Reg) (rs : Reg) : RowMatch.Statement (.movgs rd rs) :=
  ⟨⟨"movgs", 0x300C0000#32, 0xF00FFFFF#32⟩, by decide, rfl, (specialMove_mask ..).trans (by decide)⟩

theorem RowMatch.movsg (rd : Reg) (rs : Reg) : RowMatch.Statement (.movsg rd rs) :=
  ⟨⟨"movsg", 0x300D0000#32, 0xF00FFFFF#32⟩, by decide, rfl, (specialMove_mask ..).trans (by decide)⟩

theorem RowMatch.brk : RowMatch.Statement (.brk) :=
  ⟨⟨"break", 0x200C0000#32, 0xFFFFFFFF#32⟩, by decide, rfl, by decide⟩

theorem RowMatch.syscall : RowMatch.Statement (.syscall) :=
  ⟨⟨"syscall", 0x200D0000#32, 0xFFFFFFFF#32⟩, by decide, rfl, by decide⟩

theorem RowMatch.rfe : RowMatch.Statement (.rfe) :=
  ⟨⟨"rfe", 0x200E0000#32, 0xFFFFFFFF#32⟩, by decide, rfl, by decide⟩

end Sys2Proof.Laws
end

