-- ==== Sys2Proof/Tests/Slice0.lean ====
section
/-! SUPPORT. Tests: the well-formedness checks, the decoding of words written out from the encodings of
spec/30_encoding.md to 45_special.md, one step for each instruction (the vectors V<n> of
spec/95_test_vectors.md, which are the spec's own hand calculations), and a state that meets the
hypotheses of each statement. -/

namespace Sys2Proof.Tests

open Sys2Proof.Machine

/-! ### Well-formedness -/

/-- R41: `$estat` (5) may not be written; register 3 does not exist. -/
theorem test_illformed_movgs : Instr.wellFormed (.movgs 5#4 1#4) = false ∧
    Instr.wellFormed (.movgs 3#4 1#4) = false ∧ Instr.wellFormed (.movgs 4#4 1#4) = true := by decide

/-- R41: registers 3 and 14 do not exist. -/
theorem test_illformed_movsg : Instr.wellFormed (.movsg 1#4 3#4) = false ∧
    Instr.wellFormed (.movsg 1#4 14#4) = false ∧ Instr.wellFormed (.movsg 1#4 5#4) = true := by decide

/-- R61: a region is not empty and ends within the 2^20 addresses. -/
theorem test_illformed_region : Region.wellFormed ⟨0, 0, .ram⟩ = false ∧
    Region.wellFormed ⟨0xFFFFF, 2, .ram⟩ = false ∧ Region.wellFormed ⟨0xFFFFF, 1, .ram⟩ = true := by
  decide

/-- R70: two regions may not share an address. -/
theorem test_illformed_map : MemMap.wellFormed ⟨[⟨0, 16, .rom⟩, ⟨15, 4, .device⟩], .absent⟩ = false ∧
    MemMap.wellFormed ⟨[⟨0, 16, .rom⟩, ⟨16, 4, .device⟩], .absent⟩ = true := by decide

/-- D16, R42: a layout needs the four roles and room for its fields. -/
theorem test_illformed_layout :
    SprLayout.wellFormed { SprLayout.profile with slots := Vector.replicate 16 (some .cctrl) } = false ∧
    SprLayout.wellFormed { SprLayout.profile with imaskBit := 25 } = false ∧
    SprLayout.wellFormed { SprLayout.profile with kuBit := 4 } = false ∧
    SprLayout.wellFormed { SprLayout.profile with kuBit := 1 } = false ∧
    SprLayout.wellFormed SprLayout.profile = true := by decide

/-- R273: the eight interrupt bits lie inside a word. -/
theorem test_illformed_causes :
    CauseEncoding.wellFormed { CauseEncoding.words with irqBit := 25 } = false ∧
    CauseEncoding.wellFormed { CauseEncoding.words with irqBit := 24 } = true := by decide

theorem test_illformed_platform :
    Platform.wellFormed { Platform.named with memMap := ⟨[⟨0, 0, .ram⟩], .ram⟩ } = false ∧
    Platform.wellFormed { Platform.named with causes := { CauseEncoding.words with irqBit := 25 } } = false ∧
    Platform.wellFormed { Platform.named with spr := { SprLayout.profile with kuBit := 1 } } = false ∧
    Platform.wellFormed Platform.named = true := by decide

/-- R41: under another layout another number is writable. -/
theorem test_wellFormedIn_layout :
    Instr.wellFormedIn { SprLayout.profile with readOnly := [] } (.movgs 5#4 1#4) = true ∧
    Instr.wellFormedIn { SprLayout.profile with readOnly := [.evec] } (.movgs 8#4 1#4) = false := by decide

/-! ### Decoding: each word written out in the digits of the spec's encoding boxes -/

theorem test_decode_arithmetic :
    decodeWord 0b0000_0011_0001_0000_0000_0000_0000_0010#32 = .ok (.add 3#4 1#4 2#4) ∧
    decodeWord 0b0001_0011_0001_0000_1000_0000_0000_0101#32 = .ok (.addi 3#4 1#4 0x8005#16) ∧
    decodeWord 0b0000_0011_0001_0001_0000_0000_0000_0010#32 = .ok (.addu 3#4 1#4 2#4) ∧
    decodeWord 0b0001_0011_0001_0001_1000_0000_0000_0101#32 = .ok (.addui 3#4 1#4 0x8005#16) ∧
    decodeWord 0b0000_0011_0001_0010_0000_0000_0000_0010#32 = .ok (.sub 3#4 1#4 2#4) ∧
    decodeWord 0b0001_0011_0001_0010_1000_0000_0000_0101#32 = .ok (.subi 3#4 1#4 0x8005#16) ∧
    decodeWord 0b0000_0011_0001_0011_0000_0000_0000_0010#32 = .ok (.subu 3#4 1#4 2#4) ∧
    decodeWord 0b0001_0011_0001_0011_1000_0000_0000_0101#32 = .ok (.subui 3#4 1#4 0x8005#16) ∧
    decodeWord 0b0000_0011_0001_0100_0000_0000_0000_0010#32 = .ok (.mult 3#4 1#4 2#4) ∧
    decodeWord 0b0001_0011_0001_0100_1000_0000_0000_0101#32 = .ok (.multi 3#4 1#4 0x8005#16) ∧
    decodeWord 0b0000_0011_0001_0101_0000_0000_0000_0010#32 = .ok (.multu 3#4 1#4 2#4) ∧
    decodeWord 0b0001_0011_0001_0101_1000_0000_0000_0101#32 = .ok (.multui 3#4 1#4 0x8005#16) ∧
    decodeWord 0b0000_0011_0001_0110_0000_0000_0000_0010#32 = .ok (.div 3#4 1#4 2#4) ∧
    decodeWord 0b0001_0011_0001_0110_1000_0000_0000_0101#32 = .ok (.divi 3#4 1#4 0x8005#16) ∧
    decodeWord 0b0000_0011_0001_0111_0000_0000_0000_0010#32 = .ok (.divu 3#4 1#4 2#4) ∧
    decodeWord 0b0001_0011_0001_0111_1000_0000_0000_0101#32 = .ok (.divui 3#4 1#4 0x8005#16) ∧
    decodeWord 0b0000_0011_0001_1000_0000_0000_0000_0010#32 = .ok (.rem 3#4 1#4 2#4) ∧
    decodeWord 0b0001_0011_0001_1000_1000_0000_0000_0101#32 = .ok (.remi 3#4 1#4 0x8005#16) ∧
    decodeWord 0b0000_0011_0001_1001_0000_0000_0000_0010#32 = .ok (.remu 3#4 1#4 2#4) ∧
    decodeWord 0b0001_0011_0001_1001_1000_0000_0000_0101#32 = .ok (.remui 3#4 1#4 0x8005#16) ∧
    decodeWord 0b0011_0011_0000_1110_1000_0000_0000_0101#32 = .ok (.lhi 3#4 0x8005#16) ∧
    decodeWord 0b1100_0011_0000_1000_0000_0000_0000_0111#32 = .ok (.la 3#4 0x80007#20) := by decide

theorem test_decode_bitwise :
    decodeWord 0b0000_0011_0001_1010_0000_0000_0000_0010#32 = .ok (.sll 3#4 1#4 2#4) ∧
    decodeWord 0b0001_0011_0001_1010_1000_0000_0000_0101#32 = .ok (.slli 3#4 1#4 0x8005#16) ∧
    decodeWord 0b0000_0011_0001_1011_0000_0000_0000_0010#32 = .ok (.and 3#4 1#4 2#4) ∧
    decodeWord 0b0001_0011_0001_1011_1000_0000_0000_0101#32 = .ok (.andi 3#4 1#4 0x8005#16) ∧
    decodeWord 0b0000_0011_0001_1100_0000_0000_0000_0010#32 = .ok (.srl 3#4 1#4 2#4) ∧
    decodeWord 0b0001_0011_0001_1100_1000_0000_0000_0101#32 = .ok (.srli 3#4 1#4 0x8005#16) ∧
    decodeWord 0b0000_0011_0001_1101_0000_0000_0000_0010#32 = .ok (.or 3#4 1#4 2#4) ∧
    decodeWord 0b0001_0011_0001_1101_1000_0000_0000_0101#32 = .ok (.ori 3#4 1#4 0x8005#16) ∧
    decodeWord 0b0000_0011_0001_1110_0000_0000_0000_0010#32 = .ok (.sra 3#4 1#4 2#4) ∧
    decodeWord 0b0001_0011_0001_1110_1000_0000_0000_0101#32 = .ok (.srai 3#4 1#4 0x8005#16) ∧
    decodeWord 0b0000_0011_0001_1111_0000_0000_0000_0010#32 = .ok (.xor 3#4 1#4 2#4) ∧
    decodeWord 0b0001_0011_0001_1111_1000_0000_0000_0101#32 = .ok (.xori 3#4 1#4 0x8005#16) := by decide

theorem test_decode_test_register :
    decodeWord 0b0010_0011_0001_0000_0000_0000_0000_0010#32 = .ok (.slt 3#4 1#4 2#4) ∧
    decodeWord 0b0010_0011_0001_0001_0000_0000_0000_0010#32 = .ok (.sltu 3#4 1#4 2#4) ∧
    decodeWord 0b0010_0011_0001_0010_0000_0000_0000_0010#32 = .ok (.sgt 3#4 1#4 2#4) ∧
    decodeWord 0b0010_0011_0001_0011_0000_0000_0000_0010#32 = .ok (.sgtu 3#4 1#4 2#4) ∧
    decodeWord 0b0010_0011_0001_0100_0000_0000_0000_0010#32 = .ok (.sle 3#4 1#4 2#4) ∧
    decodeWord 0b0010_0011_0001_0101_0000_0000_0000_0010#32 = .ok (.sleu 3#4 1#4 2#4) ∧
    decodeWord 0b0010_0011_0001_0110_0000_0000_0000_0010#32 = .ok (.sge 3#4 1#4 2#4) ∧
    decodeWord 0b0010_0011_0001_0111_0000_0000_0000_0010#32 = .ok (.sgeu 3#4 1#4 2#4) ∧
    decodeWord 0b0010_0011_0001_1000_0000_0000_0000_0010#32 = .ok (.seq 3#4 1#4 2#4) ∧
    decodeWord 0b0010_0011_0001_1001_0000_0000_0000_0010#32 = .ok (.sequ 3#4 1#4 2#4) ∧
    decodeWord 0b0010_0011_0001_1010_0000_0000_0000_0010#32 = .ok (.sne 3#4 1#4 2#4) ∧
    decodeWord 0b0010_0011_0001_1011_0000_0000_0000_0010#32 = .ok (.sneu 3#4 1#4 2#4) := by decide

theorem test_decode_test_immediate :
    decodeWord 0b0011_0011_0001_0000_1000_0000_0000_0101#32 = .ok (.slti 3#4 1#4 0x8005#16) ∧
    decodeWord 0b0011_0011_0001_0001_1000_0000_0000_0101#32 = .ok (.sltui 3#4 1#4 0x8005#16) ∧
    decodeWord 0b0011_0011_0001_0010_1000_0000_0000_0101#32 = .ok (.sgti 3#4 1#4 0x8005#16) ∧
    decodeWord 0b0011_0011_0001_0011_1000_0000_0000_0101#32 = .ok (.sgtui 3#4 1#4 0x8005#16) ∧
    decodeWord 0b0011_0011_0001_0100_1000_0000_0000_0101#32 = .ok (.slei 3#4 1#4 0x8005#16) ∧
    decodeWord 0b0011_0011_0001_0101_1000_0000_0000_0101#32 = .ok (.sleui 3#4 1#4 0x8005#16) ∧
    decodeWord 0b0011_0011_0001_0110_1000_0000_0000_0101#32 = .ok (.sgei 3#4 1#4 0x8005#16) ∧
    decodeWord 0b0011_0011_0001_0111_1000_0000_0000_0101#32 = .ok (.sgeui 3#4 1#4 0x8005#16) ∧
    decodeWord 0b0011_0011_0001_1000_1000_0000_0000_0101#32 = .ok (.seqi 3#4 1#4 0x8005#16) ∧
    decodeWord 0b0011_0011_0001_1001_1000_0000_0000_0101#32 = .ok (.sequi 3#4 1#4 0x8005#16) ∧
    decodeWord 0b0011_0011_0001_1010_1000_0000_0000_0101#32 = .ok (.snei 3#4 1#4 0x8005#16) ∧
    decodeWord 0b0011_0011_0001_1011_1000_0000_0000_0101#32 = .ok (.sneui 3#4 1#4 0x8005#16) := by decide

theorem test_decode_branch :
    decodeWord 0b0100_0000_0000_1000_0000_0000_0000_0111#32 = .ok (.j 0x80007#20) ∧
    decodeWord 0b0101_0000_0001_0000_0000_0000_0000_0000#32 = .ok (.jr 1#4) ∧
    decodeWord 0b0110_0000_0000_1000_0000_0000_0000_0111#32 = .ok (.jal 0x80007#20) ∧
    decodeWord 0b0111_0000_0001_0000_0000_0000_0000_0000#32 = .ok (.jalr 1#4) ∧
    decodeWord 0b1010_0000_0001_1000_0000_0000_0000_0111#32 = .ok (.beqz 1#4 0x80007#20) ∧
    decodeWord 0b1011_0000_0001_1000_0000_0000_0000_0111#32 = .ok (.bnez 1#4 0x80007#20) := by decide

theorem test_decode_memory_and_special :
    decodeWord 0b1000_0011_0001_1000_0000_0000_0000_0111#32 = .ok (.lw 3#4 1#4 0x80007#20) ∧
    decodeWord 0b1001_0011_0001_1000_0000_0000_0000_0111#32 = .ok (.sw 3#4 1#4 0x80007#20) ∧
    decodeWord 0b0011_0011_0001_1100_0000_0000_0000_0000#32 = .ok (.movgs 3#4 1#4) ∧
    decodeWord 0b0011_0011_0001_1101_0000_0000_0000_0000#32 = .ok (.movsg 3#4 1#4) ∧
    decodeWord 0b0010_0000_0000_1100_0000_0000_0000_0000#32 = .ok .brk ∧
    decodeWord 0b0010_0000_0000_1101_0000_0000_0000_0000#32 = .ok .syscall ∧
    decodeWord 0b0010_0000_0000_1110_0000_0000_0000_0000#32 = .ok .rfe := by decide

/-- R113: one word for each of the ten ways to be reserved (V171, V174, V176, V178, V181, V183 to V186,
V188, V190). -/
theorem test_decode_reserved :
    decodeWord 0xD0000000#32 = .error .reservedOpcode ∧
    decodeWord 0x200F0000#32 = .error .unusedFunction ∧
    decodeWord 0x03120010#32 = .error .registerFormZeros ∧
    decodeWord 0x210C0000#32 = .error .exceptionFormZeros ∧
    decodeWord 0x381C0001#32 = .error .specialMoveZeros ∧
    decodeWord 0x331E1234#32 = .error .loadHighSource ∧
    decodeWord 0x40112345#32 = .error .jumpRegisters ∧
    decodeWord 0x50F00001#32 = .error .registerJumpFields ∧
    decodeWord 0xA1200003#32 = .error .branchDestination ∧
    decodeWord 0xC3112345#32 = .error .loadAddressSource := by decide

/-- R108, R109: the words of V174 and V184 where the fields are not checked (D14, D15). -/
theorem test_decode_unchecked_fields :
    decodeUnder .ignore false 0x03120010#32 = .ok (.sub 3#4 1#4 0#4) ∧
    decodeUnder .strict true 0x331E1234#32 = .ok (.lhi 3#4 0x1234#16) ∧
    decodeUnder .strict true 0x03120010#32 = .error .registerFormZeros ∧
    decodeUnder .ignore true 0xD0000000#32 = .error .reservedOpcode := by decide

/-! ### One step -/

/-- Kernel mode, interrupts off, `pc` = 0x100, the handler at 0x40 as `movgs` put it there. -/
def base : State :=
  { State.reset with
    pc := 0x100#20, imask := 0#8, oku := false, oie := false, evec := 0x40#32, evecWritten := true }

/-- The state with the interrupt lines driven to `l`. -/
def withIrq (l : BitVec 8) (s : State) : State := { s with irq := l }

/-- The state with `$estat` holding `v`. -/
def withEstat (v : Word) (s : State) : State := { s with estat := v }

/-- The step that fetches the word `w`. -/
def stepOn (w : Nat) (s : State) : Host.Outcome State Fault Refusal := step (s.withFetchWord 32 w)

/-- The step gives a next state, and it meets the check. -/
def nextMeets (o : Host.Outcome State Fault Refusal) (check : State → Bool) : Bool :=
  match o with
  | .next t => check t
  | .fault _ => false
  | .refused _ => false

/-! #### Arithmetic -/

/-- V4. -/
theorem test_add_wraps_unsigned :
    nextMeets (stepOn 0x03100002 ((base.setReg 1#4 0xFFFFFFFF#32).setReg 2#4 0x00000001#32))
      (fun t => t.pc == 0x00101#20 && t.reg 3#4 == 0x00000000#32) = true := by decide

/-- V2. -/
theorem test_add_overflows :
    nextMeets (stepOn 0x03100002
        (((base.setReg 1#4 0x7FFFFFFF#32).setReg 2#4 0x00000001#32).setSpecial .evec 0x00000040#32))
      (fun t => t.pc == 0x00040#20 && t.cctrlWord 0#32 == 0x0000000C#32 &&
        t.estat == 0x00008000#32 && t.ear == 0x00000101#32) = true := by decide

/-- V7. -/
theorem test_addi_minus_one :
    nextMeets (stepOn 0x1310FFFF (base.setReg 1#4 0x0000000A#32))
      (fun t => t.pc == 0x00101#20 && t.reg 3#4 == 0x00000009#32) = true := by decide

/-- V8. -/
theorem test_addi_overflows :
    nextMeets (stepOn 0x13100001 ((base.setReg 1#4 0x7FFFFFFF#32).setSpecial .evec 0x00000040#32))
      (fun t => t.pc == 0x00040#20 && t.cctrlWord 0#32 == 0x0000000C#32 &&
        t.estat == 0x00008000#32 && t.ear == 0x00000101#32) = true := by decide

/-- V12. -/
theorem test_addu_past_signed_range :
    nextMeets (stepOn 0x03110002 ((base.setReg 1#4 0x7FFFFFFF#32).setReg 2#4 0x00000001#32))
      (fun t => t.pc == 0x00101#20 && t.reg 3#4 == 0x80000000#32) = true := by decide

/-- V11. -/
theorem test_addu_overflows :
    nextMeets (stepOn 0x03110002
        (((base.setReg 1#4 0xFFFFFFFF#32).setReg 2#4 0x00000001#32).setSpecial .evec 0x00000040#32))
      (fun t => t.pc == 0x00040#20 && t.cctrlWord 0#32 == 0x0000000C#32 &&
        t.estat == 0x00008000#32 && t.ear == 0x00000101#32) = true := by decide

/-- V13. -/
theorem test_addui_zero_extends :
    nextMeets (stepOn 0x1311FFFF (base.setReg 1#4 0x00000001#32))
      (fun t => t.pc == 0x00101#20 && t.reg 3#4 == 0x00010000#32) = true := by decide

/-- V14. -/
theorem test_addui_overflows :
    nextMeets (stepOn 0x1311FFFF ((base.setReg 1#4 0xFFFF0001#32).setSpecial .evec 0x00000040#32))
      (fun t => t.pc == 0x00040#20 && t.cctrlWord 0#32 == 0x0000000C#32 &&
        t.estat == 0x00008000#32 && t.ear == 0x00000101#32) = true := by decide

/-- V15. -/
theorem test_sub_below_zero :
    nextMeets (stepOn 0x03120002 ((base.setReg 1#4 0x00000005#32).setReg 2#4 0x00000007#32))
      (fun t => t.pc == 0x00101#20 && t.reg 3#4 == 0xFFFFFFFE#32) = true := by decide

/-- V17. -/
theorem test_sub_of_least_overflows :
    nextMeets (stepOn 0x03120002
        (((base.setReg 1#4 0x00000000#32).setReg 2#4 0x80000000#32).setSpecial .evec 0x00000040#32))
      (fun t => t.pc == 0x00040#20 && t.cctrlWord 0#32 == 0x0000000C#32 &&
        t.estat == 0x00008000#32 && t.ear == 0x00000101#32) = true := by decide

/-- V18. -/
theorem test_subi_minus_one :
    nextMeets (stepOn 0x1312FFFF (base.setReg 1#4 0x00000005#32))
      (fun t => t.pc == 0x00101#20 && t.reg 3#4 == 0x00000006#32) = true := by decide

/-- V19. -/
theorem test_subi_overflows :
    nextMeets (stepOn 0x1312FFFF ((base.setReg 1#4 0x7FFFFFFF#32).setSpecial .evec 0x00000040#32))
      (fun t => t.pc == 0x00040#20 && t.cctrlWord 0#32 == 0x0000000C#32 &&
        t.estat == 0x00008000#32 && t.ear == 0x00000101#32) = true := by decide

/-- V22. -/
theorem test_subu_least :
    nextMeets (stepOn 0x03130002 ((base.setReg 1#4 0x80000000#32).setReg 2#4 0x00000001#32))
      (fun t => t.pc == 0x00101#20 && t.reg 3#4 == 0x7FFFFFFF#32) = true := by decide

/-- V21. -/
theorem test_subu_below_zero_overflows :
    nextMeets (stepOn 0x03130002
        (((base.setReg 1#4 0x00000005#32).setReg 2#4 0x00000007#32).setSpecial .evec 0x00000040#32))
      (fun t => t.pc == 0x00040#20 && t.cctrlWord 0#32 == 0x0000000C#32 &&
        t.estat == 0x00008000#32 && t.ear == 0x00000101#32) = true := by decide

/-- V23. -/
theorem test_subui_zero_extends :
    nextMeets (stepOn 0x1313FFFF (base.setReg 1#4 0x00010000#32))
      (fun t => t.pc == 0x00101#20 && t.reg 3#4 == 0x00000001#32) = true := by decide

/-- V24. -/
theorem test_subui_overflows :
    nextMeets (stepOn 0x13130001 ((base.setReg 1#4 0x00000000#32).setSpecial .evec 0x00000040#32))
      (fun t => t.pc == 0x00040#20 && t.cctrlWord 0#32 == 0x0000000C#32 &&
        t.estat == 0x00008000#32 && t.ear == 0x00000101#32) = true := by decide

/-- V27. -/
theorem test_mult_least :
    nextMeets (stepOn 0x03140002 ((base.setReg 1#4 0x00010000#32).setReg 2#4 0xFFFF8000#32))
      (fun t => t.pc == 0x00101#20 && t.reg 3#4 == 0x80000000#32) = true := by decide

/-- V28. -/
theorem test_mult_overflows :
    nextMeets (stepOn 0x03140002
        (((base.setReg 1#4 0x80000000#32).setReg 2#4 0xFFFFFFFF#32).setSpecial .evec 0x00000040#32))
      (fun t => t.pc == 0x00040#20 && t.cctrlWord 0#32 == 0x0000000C#32 &&
        t.estat == 0x00008000#32 && t.ear == 0x00000101#32) = true := by decide

/-- V29. -/
theorem test_multi_negative :
    nextMeets (stepOn 0x1314FFFE (base.setReg 1#4 0x00000006#32))
      (fun t => t.pc == 0x00101#20 && t.reg 3#4 == 0xFFFFFFF4#32) = true := by decide

/-- V30. -/
theorem test_multu_largest :
    nextMeets (stepOn 0x03150002 ((base.setReg 1#4 0x0000FFFF#32).setReg 2#4 0x00010001#32))
      (fun t => t.pc == 0x00101#20 && t.reg 3#4 == 0xFFFFFFFF#32) = true := by decide

/-- V31. -/
theorem test_multu_overflows :
    nextMeets (stepOn 0x03150002
        (((base.setReg 1#4 0x00010000#32).setReg 2#4 0x00010000#32).setSpecial .evec 0x00000040#32))
      (fun t => t.pc == 0x00040#20 && t.cctrlWord 0#32 == 0x0000000C#32 &&
        t.estat == 0x00008000#32 && t.ear == 0x00000101#32) = true := by decide

/-- V34. -/
theorem test_multui_largest :
    nextMeets (stepOn 0x1315FFFF (base.setReg 1#4 0x00010001#32))
      (fun t => t.pc == 0x00101#20 && t.reg 3#4 == 0xFFFFFFFF#32) = true := by decide

/-- V35. -/
theorem test_multui_overflows :
    nextMeets (stepOn 0x1315FFFF ((base.setReg 1#4 0x00010002#32).setSpecial .evec 0x00000040#32))
      (fun t => t.pc == 0x00040#20 && t.cctrlWord 0#32 == 0x0000000C#32 &&
        t.estat == 0x00008000#32 && t.ear == 0x00000101#32) = true := by decide

/-- V37. -/
theorem test_div_toward_zero :
    nextMeets (stepOn 0x03160002 ((base.setReg 1#4 0xFFFFFFF9#32).setReg 2#4 0x00000002#32))
      (fun t => t.pc == 0x00101#20 && t.reg 3#4 == 0xFFFFFFFD#32) = true := by decide

/-- V40. -/
theorem test_div_by_zero :
    nextMeets (stepOn 0x03160002
        (((base.setReg 1#4 0x00000007#32).setReg 2#4 0x00000000#32).setSpecial .evec 0x00000040#32))
      (fun t => t.pc == 0x00040#20 && t.cctrlWord 0#32 == 0x0000000C#32 &&
        t.estat == 0x00008000#32 && t.ear == 0x00000101#32) = true := by decide

/-- V42. -/
theorem test_divi_negatives :
    nextMeets (stepOn 0x1316FFF9 (base.setReg 1#4 0xFFFFFF9C#32))
      (fun t => t.pc == 0x00101#20 && t.reg 3#4 == 0x0000000E#32) = true := by decide

/-- V43. -/
theorem test_divi_by_zero :
    nextMeets (stepOn 0x13160000 ((base.setReg 1#4 0x00000005#32).setSpecial .evec 0x00000040#32))
      (fun t => t.pc == 0x00040#20 && t.cctrlWord 0#32 == 0x0000000C#32 &&
        t.estat == 0x00008000#32 && t.ear == 0x00000101#32) = true := by decide

/-- V44. -/
theorem test_divu_unsigned :
    nextMeets (stepOn 0x03170002 ((base.setReg 1#4 0xFFFFFFF9#32).setReg 2#4 0x00000002#32))
      (fun t => t.pc == 0x00101#20 && t.reg 3#4 == 0x7FFFFFFC#32) = true := by decide

/-- V45. -/
theorem test_divu_by_zero :
    nextMeets (stepOn 0x03170002
        (((base.setReg 1#4 0x00000001#32).setReg 2#4 0x00000000#32).setSpecial .evec 0x00000040#32))
      (fun t => t.pc == 0x00040#20 && t.cctrlWord 0#32 == 0x0000000C#32 &&
        t.estat == 0x00008000#32 && t.ear == 0x00000101#32) = true := by decide

/-- V46. -/
theorem test_divui_largest :
    nextMeets (stepOn 0x1317FFFF (base.setReg 1#4 0xFFFFFFFF#32))
      (fun t => t.pc == 0x00101#20 && t.reg 3#4 == 0x00010001#32) = true := by decide

/-- V48. -/
theorem test_rem_sign_of_dividend :
    nextMeets (stepOn 0x03180002 ((base.setReg 1#4 0xFFFFFFF9#32).setReg 2#4 0x00000002#32))
      (fun t => t.pc == 0x00101#20 && t.reg 3#4 == 0xFFFFFFFF#32) = true := by decide

/-- V51. -/
theorem test_rem_by_zero :
    nextMeets (stepOn 0x03180002
        (((base.setReg 1#4 0x00000007#32).setReg 2#4 0x00000000#32).setSpecial .evec 0x00000040#32))
      (fun t => t.pc == 0x00040#20 && t.cctrlWord 0#32 == 0x0000000C#32 &&
        t.estat == 0x00008000#32 && t.ear == 0x00000101#32) = true := by decide

/-- V52. -/
theorem test_remi_negative :
    nextMeets (stepOn 0x13180007 (base.setReg 1#4 0xFFFFFF9C#32))
      (fun t => t.pc == 0x00101#20 && t.reg 3#4 == 0xFFFFFFFE#32) = true := by decide

/-- V53. -/
theorem test_remu_unsigned :
    nextMeets (stepOn 0x03190002 ((base.setReg 1#4 0xFFFFFFF9#32).setReg 2#4 0x0000000A#32))
      (fun t => t.pc == 0x00101#20 && t.reg 3#4 == 0x00000009#32) = true := by decide

/-- V54. -/
theorem test_remu_by_zero :
    nextMeets (stepOn 0x03190002
        (((base.setReg 1#4 0x00000009#32).setReg 2#4 0x00000000#32).setSpecial .evec 0x00000040#32))
      (fun t => t.pc == 0x00040#20 && t.cctrlWord 0#32 == 0x0000000C#32 &&
        t.estat == 0x00008000#32 && t.ear == 0x00000101#32) = true := by decide

/-- V55. -/
theorem test_remui_zero_extends :
    nextMeets (stepOn 0x1319FFFF (base.setReg 1#4 0x00000064#32))
      (fun t => t.pc == 0x00101#20 && t.reg 3#4 == 0x00000064#32) = true := by decide

/-- V57. -/
theorem test_lhi_clears_low_half :
    nextMeets (stepOn 0x330EFFFF (base.setReg 3#4 0x5555AAAA#32))
      (fun t => t.pc == 0x00101#20 && t.reg 3#4 == 0xFFFF0000#32) = true := by decide

/-- V59. -/
theorem test_la_zero_extends :
    nextMeets (stepOn 0xC30FFFFF base)
      (fun t => t.pc == 0x00101#20 && t.reg 3#4 == 0x000FFFFF#32) = true := by decide

/-! #### Bitwise -/

/-- V62. -/
theorem test_and_bits :
    nextMeets (stepOn 0x031B0002 ((base.setReg 1#4 0xF0F0A5A5#32).setReg 2#4 0xFF00FFFF#32))
      (fun t => t.pc == 0x00101#20 && t.reg 3#4 == 0xF000A5A5#32) = true := by decide

/-- V63. -/
theorem test_andi_clears_high_half :
    nextMeets (stepOn 0x131BFFFF (base.setReg 1#4 0xF0F0A5A5#32))
      (fun t => t.pc == 0x00101#20 && t.reg 3#4 == 0x0000A5A5#32) = true := by decide

/-- V64. -/
theorem test_or_bits :
    nextMeets (stepOn 0x031D0002 ((base.setReg 1#4 0xF0F0A5A5#32).setReg 2#4 0x0F0F0000#32))
      (fun t => t.pc == 0x00101#20 && t.reg 3#4 == 0xFFFFA5A5#32) = true := by decide

/-- V66. -/
theorem test_ori_no_sign_extension :
    nextMeets (stepOn 0x130D8000 base)
      (fun t => t.pc == 0x00101#20 && t.reg 3#4 == 0x00008000#32) = true := by decide

/-- V67. -/
theorem test_xor_complement :
    nextMeets (stepOn 0x031F0002 ((base.setReg 1#4 0xF0F0A5A5#32).setReg 2#4 0xFFFFFFFF#32))
      (fun t => t.pc == 0x00101#20 && t.reg 3#4 == 0x0F0F5A5A#32) = true := by decide

/-- V68. -/
theorem test_xori_low_half_only :
    nextMeets (stepOn 0x131FFFFF (base.setReg 1#4 0xF0F0A5A5#32))
      (fun t => t.pc == 0x00101#20 && t.reg 3#4 == 0xF0F05A5A#32) = true := by decide

/-- V72. -/
theorem test_sll_low_five_bits :
    nextMeets (stepOn 0x031A0002 ((base.setReg 1#4 0x12345678#32).setReg 2#4 0xFFFFFFE4#32))
      (fun t => t.pc == 0x00101#20 && t.reg 3#4 == 0x23456780#32) = true := by decide

/-- V74. -/
theorem test_slli_low_five_bits :
    nextMeets (stepOn 0x131A0024 (base.setReg 1#4 0x12345678#32))
      (fun t => t.pc == 0x00101#20 && t.reg 3#4 == 0x23456780#32) = true := by decide

/-- V77. -/
theorem test_srl_zero_fill :
    nextMeets (stepOn 0x031C0002 ((base.setReg 1#4 0xF0000000#32).setReg 2#4 0x00000004#32))
      (fun t => t.pc == 0x00101#20 && t.reg 3#4 == 0x0F000000#32) = true := by decide

/-- V79. -/
theorem test_srli_amount_zero :
    nextMeets (stepOn 0x131CFFE0 (base.setReg 1#4 0xF0000000#32))
      (fun t => t.pc == 0x00101#20 && t.reg 3#4 == 0xF0000000#32) = true := by decide

/-- V80. -/
theorem test_sra_sign_fill :
    nextMeets (stepOn 0x031E0002 ((base.setReg 1#4 0xF0000000#32).setReg 2#4 0x00000004#32))
      (fun t => t.pc == 0x00101#20 && t.reg 3#4 == 0xFF000000#32) = true := by decide

/-- V83. -/
theorem test_srai_thirty_one :
    nextMeets (stepOn 0x131E001F (base.setReg 1#4 0x80000000#32))
      (fun t => t.pc == 0x00101#20 && t.reg 3#4 == 0xFFFFFFFF#32) = true := by decide

/-! #### Test -/

/-- V87. -/
theorem test_slt_sign :
    nextMeets (stepOn 0x23100002 ((base.setReg 1#4 0x80000000#32).setReg 2#4 0x7FFFFFFF#32))
      (fun t => t.pc == 0x00101#20 && t.reg 3#4 == 0x00000001#32) = true := by decide

/-- V91. -/
theorem test_slti_least :
    nextMeets (stepOn 0x33108000 (base.setReg 1#4 0x80000000#32))
      (fun t => t.pc == 0x00101#20 && t.reg 3#4 == 0x00000001#32) = true := by decide

/-- V88. -/
theorem test_sltu_sign :
    nextMeets (stepOn 0x23110002 ((base.setReg 1#4 0x80000000#32).setReg 2#4 0x7FFFFFFF#32))
      (fun t => t.pc == 0x00101#20 && t.reg 3#4 == 0x00000000#32) = true := by decide

/-- V90. -/
theorem test_sltui_zero_extends :
    nextMeets (stepOn 0x3301FFFF base)
      (fun t => t.pc == 0x00101#20 && t.reg 3#4 == 0x00000001#32) = true := by decide

/-- V92. -/
theorem test_sgt_sign :
    nextMeets (stepOn 0x23120002 ((base.setReg 1#4 0x00000001#32).setReg 2#4 0xFFFFFFFF#32))
      (fun t => t.pc == 0x00101#20 && t.reg 3#4 == 0x00000001#32) = true := by decide

/-- V94. -/
theorem test_sgti_equal :
    nextMeets (stepOn 0x33120005 (base.setReg 1#4 0x00000005#32))
      (fun t => t.pc == 0x00101#20 && t.reg 3#4 == 0x00000000#32) = true := by decide

/-- V93. -/
theorem test_sgtu_sign :
    nextMeets (stepOn 0x23130002 ((base.setReg 1#4 0x00000001#32).setReg 2#4 0xFFFFFFFF#32))
      (fun t => t.pc == 0x00101#20 && t.reg 3#4 == 0x00000000#32) = true := by decide

/-- V95. -/
theorem test_sgtui_zero_extends :
    nextMeets (stepOn 0x3313FFFF (base.setReg 1#4 0x00010000#32))
      (fun t => t.pc == 0x00101#20 && t.reg 3#4 == 0x00000001#32) = true := by decide

/-- V97. -/
theorem test_sle_sign :
    nextMeets (stepOn 0x23140002 ((base.setReg 1#4 0x7FFFFFFF#32).setReg 2#4 0x80000000#32))
      (fun t => t.pc == 0x00101#20 && t.reg 3#4 == 0x00000000#32) = true := by decide

/-- V99. -/
theorem test_slei_equal :
    nextMeets (stepOn 0x3314FFFF (base.setReg 1#4 0xFFFFFFFF#32))
      (fun t => t.pc == 0x00101#20 && t.reg 3#4 == 0x00000001#32) = true := by decide

/-- V98. -/
theorem test_sleu_sign :
    nextMeets (stepOn 0x23150002 ((base.setReg 1#4 0x7FFFFFFF#32).setReg 2#4 0x80000000#32))
      (fun t => t.pc == 0x00101#20 && t.reg 3#4 == 0x00000001#32) = true := by decide

/-- V100. -/
theorem test_sleui_zero_extends :
    nextMeets (stepOn 0x3315FFFF (base.setReg 1#4 0xFFFFFFFF#32))
      (fun t => t.pc == 0x00101#20 && t.reg 3#4 == 0x00000000#32) = true := by decide

/-- V101. -/
theorem test_sge_sign :
    nextMeets (stepOn 0x23160002 ((base.setReg 1#4 0x80000000#32).setReg 2#4 0x00000000#32))
      (fun t => t.pc == 0x00101#20 && t.reg 3#4 == 0x00000000#32) = true := by decide

/-- V103. -/
theorem test_sgei_equal :
    nextMeets (stepOn 0x33168000 (base.setReg 1#4 0xFFFF8000#32))
      (fun t => t.pc == 0x00101#20 && t.reg 3#4 == 0x00000001#32) = true := by decide

/-- V102. -/
theorem test_sgeu_sign :
    nextMeets (stepOn 0x23170002 ((base.setReg 1#4 0x80000000#32).setReg 2#4 0x00000000#32))
      (fun t => t.pc == 0x00101#20 && t.reg 3#4 == 0x00000001#32) = true := by decide

/-- V104. -/
theorem test_sgeui_zero_extends :
    nextMeets (stepOn 0x33178000 (base.setReg 1#4 0x00008000#32))
      (fun t => t.pc == 0x00101#20 && t.reg 3#4 == 0x00000001#32) = true := by decide

/-- V105. -/
theorem test_seq_equal :
    nextMeets (stepOn 0x23180002 ((base.setReg 1#4 0x12345678#32).setReg 2#4 0x12345678#32))
      (fun t => t.pc == 0x00101#20 && t.reg 3#4 == 0x00000001#32) = true := by decide

/-- V107. -/
theorem test_seqi_sign_extends :
    nextMeets (stepOn 0x3318FFFF (base.setReg 1#4 0xFFFFFFFF#32))
      (fun t => t.pc == 0x00101#20 && t.reg 3#4 == 0x00000001#32) = true := by decide

/-- V106. -/
theorem test_sequ_different :
    nextMeets (stepOn 0x23190002 ((base.setReg 1#4 0x12345678#32).setReg 2#4 0x12345679#32))
      (fun t => t.pc == 0x00101#20 && t.reg 3#4 == 0x00000000#32) = true := by decide

/-- V108. -/
theorem test_sequi_zero_extends :
    nextMeets (stepOn 0x3319FFFF (base.setReg 1#4 0xFFFFFFFF#32))
      (fun t => t.pc == 0x00101#20 && t.reg 3#4 == 0x00000000#32) = true := by decide

/-- V109. -/
theorem test_sne_zero :
    nextMeets (stepOn 0x230A0000 (base.setReg 0#4 0x00000000#32))
      (fun t => t.pc == 0x00101#20 && t.reg 3#4 == 0x00000000#32) = true := by decide

/-- V111. -/
theorem test_snei_sign_extends :
    nextMeets (stepOn 0x331AFFFF (base.setReg 1#4 0x0000FFFF#32))
      (fun t => t.pc == 0x00101#20 && t.reg 3#4 == 0x00000001#32) = true := by decide

/-- V110. -/
theorem test_sneu_different :
    nextMeets (stepOn 0x231B0002 ((base.setReg 1#4 0x00000001#32).setReg 2#4 0x00000002#32))
      (fun t => t.pc == 0x00101#20 && t.reg 3#4 == 0x00000001#32) = true := by decide

/-- V112. -/
theorem test_sneui_zero_extends :
    nextMeets (stepOn 0x331BFFFF (base.setReg 1#4 0x0000FFFF#32))
      (fun t => t.pc == 0x00101#20 && t.reg 3#4 == 0x00000000#32) = true := by decide

/-! #### Branch -/

/-- V114. -/
theorem test_j_target :
    nextMeets (stepOn 0x40012345 base)
      (fun t => t.pc == 0x12345#20) = true := by decide

/-- V117. -/
theorem test_jr_ignores_high_bits :
    nextMeets (stepOn 0x50400000 (base.setReg 4#4 0xABC12345#32))
      (fun t => t.pc == 0x12345#20) = true := by decide

/-- V119. -/
theorem test_jal_link_wraps :
    nextMeets (stepOn 0x60000000 (base.setPc 0xFFFFF#20))
      (fun t => t.pc == 0x00000#20 && t.reg 15#4 == 0x00000000#32) = true := by decide

/-- V121. -/
theorem test_jalr_reads_target_first :
    nextMeets (stepOn 0x70F00000 (base.setReg 15#4 0x00000300#32))
      (fun t => t.pc == 0x00300#20 && t.reg 15#4 == 0x00000101#32) = true := by decide

/-- V133. -/
theorem test_beqz_wraps :
    nextMeets (stepOn 0xA0200002 ((base.setPc 0xFFFFE#20).setReg 2#4 0x00000000#32))
      (fun t => t.pc == 0x00001#20) = true := by decide

/-- V132. -/
theorem test_bnez_backward_wraps :
    nextMeets (stepOn 0xB0280000 (base.setReg 2#4 0x00000001#32))
      (fun t => t.pc == 0x80101#20) = true := by decide

/-! #### Memory -/

/-- V140. -/
theorem test_lw_wrapped_sum :
    nextMeets (stepOn 0x831FFFFE
        ((base.setReg 1#4 0x00000001#32).placeWord 0xFFFFF#20 0x00000099#32))
      (fun t => t.pc == 0x00101#20 && t.reg 3#4 == 0x00000099#32) = true := by decide

/-- V139. -/
theorem test_lw_ignores_high_bits :
    nextMeets (stepOn 0x83100000
        ((base.setReg 1#4 0xABC01000#32).placeWord 0x01000#20 0x00000077#32))
      (fun t => t.pc == 0x00101#20 && t.reg 3#4 == 0x00000077#32) = true := by decide

/-- V146. -/
theorem test_sw_wraps_to_zero :
    nextMeets (stepOn 0x9317FFFF ((base.setReg 1#4 0x00080001#32).setReg 3#4 0x00000005#32))
      (fun t => t.pc == 0x00101#20 &&
        t.mem.word? 0x00000#20 == some 0x00000005#32) = true := by decide

/-- V144. -/
theorem test_sw_stores_zero :
    nextMeets (stepOn 0x90100004
        ((base.setReg 1#4 0x00001000#32).placeWord 0x01004#20 0xFFFFFFFF#32))
      (fun t => t.pc == 0x00101#20 &&
        t.mem.word? 0x01004#20 == some 0x00000000#32) = true := by decide

/-! #### Special and interrupts -/

/-- V147. -/
theorem test_movgs_evec :
    nextMeets (stepOn 0x381C0000 (base.setReg 1#4 0x00000040#32))
      (fun t => t.pc == 0x00101#20 && t.evec == 0x00000040#32) = true := by decide

/-- V149. -/
theorem test_movgs_cctrl :
    nextMeets (stepOn 0x342C0000 (base.setReg 2#4 0xFFFFFFFF#32))
      (fun t => t.pc == 0x00101#20 && t.cctrlWord 0#32 == 0x00000FFF#32) = true := by decide

/-- V153. -/
theorem test_movsg_ear :
    nextMeets (stepOn 0x319D0000 (base.setSpecial .ear 0x00000123#32))
      (fun t => t.pc == 0x00101#20 && t.reg 1#4 == 0x00000123#32) = true := by decide

/-- V154. -/
theorem test_movsg_estat :
    nextMeets (stepOn 0x325D0000 (withEstat 0x00004000#32 base))
      (fun t => t.pc == 0x00101#20 && t.reg 2#4 == 0x00004000#32) = true := by decide

/-- V162. -/
theorem test_break_link_wraps :
    nextMeets (stepOn 0x200C0000
        (((base.setPc 0xFFFFF#20).setCctrl 0x00000008#32).setSpecial .evec 0x00000040#32))
      (fun t => t.pc == 0x00040#20 && t.cctrlWord 0#32 == 0x0000000C#32 &&
        t.estat == 0x00004000#32 && t.ear == 0x00000000#32) = true := by decide

/-- V160. -/
theorem test_syscall_handler_low_bits :
    nextMeets (stepOn 0x200D0000 ((base.setCctrl 0x00000008#32).setSpecial .evec 0xFFF00040#32))
      (fun t => t.pc == 0x00040#20 && t.cctrlWord 0#32 == 0x0000000C#32 &&
        t.estat == 0x00002000#32 && t.ear == 0x00000101#32) = true := by decide

/-- V163. -/
theorem test_rfe_to_user :
    nextMeets (stepOn 0x200E0000 ((base.setCctrl 0x00000009#32).setSpecial .ear 0x00000104#32))
      (fun t => t.pc == 0x00104#20 && t.cctrlWord 0#32 == 0x00000003#32) = true := by decide

/-- V165. -/
theorem test_rfe_ignores_high_bits :
    nextMeets (stepOn 0x200E0000 ((base.setCctrl 0x0000000C#32).setSpecial .ear 0xABC00104#32))
      (fun t => t.pc == 0x00104#20) = true := by decide

/-- V166. -/
theorem test_interrupt_before_fetch :
    nextMeets (stepOn 0x03100002
        (withIrq 0x02#8 ((((base.setReg 1#4 0x00000001#32).setReg 2#4 0x00000002#32).setCctrl 0x0000002A#32).setSpecial .evec 0x00000040#32)))
      (fun t => t.pc == 0x00040#20 && t.cctrlWord 0#32 == 0x0000002D#32 &&
        t.estat == 0x00000020#32 && t.ear == 0x00000100#32) = true := by decide

/-- V167. -/
theorem test_interrupt_masked :
    nextMeets (stepOn 0x03100002
        (withIrq 0x05#8 ((((base.setReg 1#4 0x00000001#32).setReg 2#4 0x00000002#32).setCctrl 0x0000002A#32).setSpecial .evec 0x00000040#32)))
      (fun t => t.pc == 0x00101#20 && t.reg 3#4 == 0x00000003#32) = true := by decide

/-! #### Runs, and the other values of the parameters -/

/-- The step after a step. -/
def thenStep (o : Host.Outcome State Fault Refusal) : Host.Outcome State Fault Refusal :=
  match o with
  | .next t => step t
  | .fault f => .fault f
  | .refused r => .refused r

/-- The outcome is the refusal of an entry without a target. -/
def refusedUnset (o : Host.Outcome State Fault Refusal) : Bool :=
  match o with
  | .refused .handlerUnset => true
  | _ => false

/-- `$evec` as it is before any write. -/
def unsetHandler (s : State) : State := { s with evecWritten := false }

/-- V161: `syscall` where `$evec` was never written; P6: `div $6, $0, $0` as the first instruction. -/
theorem test_entry_without_target_refused :
    refusedUnset (stepOn 0x200D0000 (unsetHandler base)) = true ∧
    refusedUnset (stepOn 0x06060000 State.reset) = true ∧
    refusedUnset (step { unsetHandler base with ie := true, imask := 1#8, irq := 1#8 }) = true := by decide

/-- R274: after `movgs $evec, $0` (0x380C0000) the same `syscall` enters at 0. -/
theorem test_movgs_gives_target :
    nextMeets (thenStep (step ((unsetHandler base).loadWords 0x100#20 [0x380C0000#32, 0x200D0000#32])))
      (fun t => t.pc == 0#20 && t.ear == 0x102#32) = true := by decide

/-- The outcome is a refusal of a user-mode step. -/
def refusedInUserMode (o : Host.Outcome State Fault Refusal) : Bool :=
  match o with
  | .refused .userModeStep => true
  | _ => false

/-- The third image of P6: `addi $1, $0, 0`; `movgs $cctrl, $1`; `j 0x00002`. -/
def userSpin : State := State.reset.loadWords 0#20 [0x11000000#32, 0x341C0000#32, 0x40000002#32]

/-- P6: the third step is refused, and the run ends there with no result. -/
theorem test_user_spin_refused :
    nextMeets (thenStep (step userSpin))
      (fun t => t.pc == 0x00002#20 && !t.ku && !t.atSelfJump) = true ∧
    refusedInUserMode (thenStep (thenStep (step userSpin))) = true := by decide

/-- P6: under `unrestricted` the program spins at 0x00002. -/
theorem test_user_spin_unrestricted :
    nextMeets (thenStep (step { userSpin with platform.userMode := .unrestricted }))
      (fun t => t.pc == 0x00002#20 && !t.ku && t.atSelfJump) = true := by decide

/-- D10: -7 divided by 2 under `floor`, quotient and remainder. -/
theorem test_div_floor :
    nextMeets (stepOn 0x03160002 { (base.setReg 1#4 0xFFFFFFF9#32).setReg 2#4 2#32 with
      platform.divRound := .floor }) (fun t => t.reg 3#4 == 0xFFFFFFFC#32) = true ∧
    nextMeets (stepOn 0x03180002 { (base.setReg 1#4 0xFFFFFFF9#32).setReg 2#4 2#32 with
      platform.divRound := .floor }) (fun t => t.reg 3#4 == 1#32) = true := by decide

/-- D7: `beqz $0, 2` with the branch's own address as base. -/
theorem test_branch_base_current :
    nextMeets (stepOn 0xA0000002 { base with platform.branchBase := .current })
      (fun t => t.pc == 0x00102#20) = true := by decide

/-- D20, D21, D22: `break` with another handler (which needs no `$evec`), return address and cause word. -/
theorem test_entry_alternatives :
    nextMeets (stepOn 0x200C0000 { unsetHandler base with
        platform.earValue := .faulting, platform.excHandler := .fixed 0x00200#20,
        platform.causes.breakpoint := 9#32 })
      (fun t => t.pc == 0x00200#20 && t.ear == 0x100#32 && t.estat == 9#32) = true := by decide

/-- D23: no lines, no interrupt. -/
theorem test_no_lines :
    nextMeets (stepOn 0x03100000 { base with
        ie := true, imask := 0xFF#8, irq := 0xFF#8, platform.irqModel := .none })
      (fun t => t.pc == 0x00101#20 && t.irq == 0#8) = true := by decide

/-- D18: where `KU` = 0 means kernel, entry clears `KU`. -/
theorem test_kernel_value :
    nextMeets (stepOn 0x200D0000 { base with
        ku := true, platform.kuKernel := false, platform.userMode := .unrestricted })
      (fun t => !t.ku && t.oku) = true := by decide

/-- D28: the same four bytes in the two orders. -/
theorem test_image_byte_order :
    ({ base with platform.imageByteOrder := .big }.loadBytes 0#20
      [0x12#8, 0x34#8, 0x56#8, 0x78#8]).mem.word? 0#20 = some 0x12345678#32 ∧
    ({ base with platform.imageByteOrder := .little }.loadBytes 0#20
      [0x12#8, 0x34#8, 0x56#8, 0x78#8]).mem.word? 0#20 = some 0x78563412#32 := by decide

/-! ### A state and operands that meet the hypotheses of each statement, every clause of it -/

/-- `base` with `$1` and `$2` set. -/
def regs2 (a b : Word) : State := (base.setReg 1#4 a).setReg 2#4 b

/-- `base` with the word `w` at `pc`. -/
def running (w : Nat) : State := base.withFetchWord 32 w

/-- A map of one kind at 0x1000 and ram elsewhere. -/
def oneAddress (k : MemKind) : MemMap := { regions := [⟨0x1000, 1, k⟩], elsewhere := .ram }

/-- The state on another platform. -/
def onPlatform (p : Platform) (s : State) : State := { s with platform := p }

/-- The state on another memory map. -/
def onMap (m : MemMap) (s : State) : State := onPlatform { s.platform with memMap := m } s

/-- The state in user mode under a policy. -/
def inUserMode (p : UserModePolicy) (s : State) : State :=
  { onPlatform { s.platform with userMode := p } s with ku := false }

/-- The state under `PC_WRAP = refuse`. -/
def noWrap (s : State) : State := onPlatform { s.platform with pcWrap := .refuse } s

/-- On `Platform.named` the entry parameters have the values the spec decides. -/
theorem decided {s : State} (h : s.platform = Platform.named) : DecidedTrap s :=
  ⟨⟨by rw [h]; rfl, by rw [h]; rfl, by rw [h]; rfl, by rw [h]; rfl⟩, by rw [h]; rfl, .inl (by rw [h]; rfl)⟩

/-- Where the handler is at `evec[19:0]`, entry has no target before the first write of `$evec`. -/
theorem no_target {s : State} (h : DecidedEntry s) : ¬ HasTarget (unsetHandler s) := fun k => by
  rcases k with k | k | k <;> simp [unsetHandler, h.handler, h.entry, EntryStep.sequence] at k

/-- `PC_WRAP` at its decided value, and at the other value where there is a next address: for
`ShiftRegisterResults`, `ShiftImmediateResults`, the four test result statements and
`LoadConstantResults`, and the first hypothesis of the others. -/
theorem witness_HasSuccessor (a b : Word) :
    HasSuccessor (regs2 a b) ∧ HasSuccessor (base.setPc 0xFFFFF#20) ∧ HasSuccessor (noWrap base) ∧
      HasSuccessor (noWrap (base.setPc 0xFFFFE#20)) :=
  ⟨.inl rfl, .inl rfl, .inr (by decide), .inr (by decide)⟩

theorem witness_LogicalRegisterResults :
    HasSuccessor (regs2 0xC#32 0xA#32) ∧
    (∀ k, (0x8#32).getLsbD k = and (((regs2 0xC#32 0xA#32).reg 1#4).getLsbD k)
      (((regs2 0xC#32 0xA#32).reg 2#4).getLsbD k)) ∧
    (∀ k, (0xE#32).getLsbD k = or (((regs2 0xC#32 0xA#32).reg 1#4).getLsbD k)
      (((regs2 0xC#32 0xA#32).reg 2#4).getLsbD k)) ∧
    (∀ k, (0x6#32).getLsbD k = xor (((regs2 0xC#32 0xA#32).reg 1#4).getLsbD k)
      (((regs2 0xC#32 0xA#32).reg 2#4).getLsbD k)) :=
  ⟨.inl rfl, fun _ => BitVec.getLsbD_and (x := 0xC#32) (y := 0xA#32),
    fun _ => BitVec.getLsbD_or (x := 0xC#32) (y := 0xA#32),
    fun _ => BitVec.getLsbD_xor (x := 0xC#32) (y := 0xA#32)⟩

theorem witness_LogicalImmediateResults :
    HasSuccessor (regs2 0xC000C000#32 0#32) ∧
    (∀ k, (0x8000#32).getLsbD k = and (((regs2 0xC000C000#32 0#32).reg 1#4).getLsbD k)
      ((0xA000#16).getLsbD k)) ∧
    (∀ k, (0xC000E000#32).getLsbD k = or (((regs2 0xC000C000#32 0#32).reg 1#4).getLsbD k)
      ((0xA000#16).getLsbD k)) ∧
    (∀ k, (0xC0006000#32).getLsbD k = xor (((regs2 0xC000C000#32 0#32).reg 1#4).getLsbD k)
      ((0xA000#16).getLsbD k)) :=
  ⟨.inl rfl, fun k => (BitVec.getLsbD_and (x := 0xC000C000#32) (y := zext 0xA000#16)).trans
      (by rw [zext_getLsbD]; rfl),
    fun k => (BitVec.getLsbD_or (x := 0xC000C000#32) (y := zext 0xA000#16)).trans
      (by rw [zext_getLsbD]; rfl),
    fun k => (BitVec.getLsbD_xor (x := 0xC000C000#32) (y := zext 0xA000#16)).trans
      (by rw [zext_getLsbD]; rfl)⟩

/-- The least and the greatest immediate. -/
theorem witness_SignExtendedImmediateForms :
    (∀ k, k < 32 → ((regs2 0#32 0xFFFF8000#32).reg 2#4).getLsbD k = (0x8000#16).getLsbD (min k 15)) ∧
    (∀ k, k < 32 → ((regs2 0#32 0x00007FFF#32).reg 2#4).getLsbD k = (0x7FFF#16).getLsbD (min k 15)) := by
  decide

/-- The greatest immediate. -/
theorem witness_ZeroExtendedImmediateForms (k : Nat) :
    ((regs2 0#32 0xFFFF#32).reg 2#4).getLsbD k = (decide (k < 16) && (0xFFFF#16).getLsbD k) := by
  refine (zext_getLsbD 0xFFFF#16 k).trans ?_
  by_cases h : k < 16
  · simp [h]
  · simp [h, BitVec.getLsbD_of_ge (0xFFFF#16) k (by omega)]

theorem witness_ShiftAmountsUseFiveBits :
    (0x001F#16).toNat % 32 = (0xFFFF#16).toNat % 32 ∧
    ((regs2 0x20#32 0xFFFFFFE0#32).reg 1#4).toNat % 32 =
      ((regs2 0x20#32 0xFFFFFFE0#32).reg 2#4).toNat % 32 ∧
    ((regs2 0#32 0xFFFFFFFF#32).reg 2#4).toNat % 32 = (0x001F#16).toNat % 32 := by decide

/-- The greatest and the least signed result. -/
theorem witness_SignedAddSubResults :
    ((regs2 0x7FFFFFFE#32 1#32).reg 1#4).toInt + ((regs2 0x7FFFFFFE#32 1#32).reg 2#4).toInt = 2147483647 ∧
    ((regs2 0x80008000#32 0#32).reg 1#4).toInt + (0x8000#16).toInt = -2147483648 ∧
    ((regs2 0x80000001#32 1#32).reg 1#4).toInt - ((regs2 0x80000001#32 1#32).reg 2#4).toInt =
      -2147483648 ∧
    ((regs2 0x7FFF7FFF#32 0#32).reg 1#4).toInt - (0x8000#16).toInt = 2147483647 := by decide

/-- The greatest and the least unsigned result. -/
theorem witness_UnsignedAddSubResults :
    (((regs2 0xFFFFFFFE#32 1#32).reg 1#4).toNat : Int) + ((regs2 0xFFFFFFFE#32 1#32).reg 2#4).toNat =
      4294967295 ∧
    (((regs2 0xFFFF0000#32 0#32).reg 1#4).toNat : Int) + (0xFFFF#16).toNat = 4294967295 ∧
    (((regs2 5#32 5#32).reg 1#4).toNat : Int) - ((regs2 5#32 5#32).reg 2#4).toNat = 0 ∧
    (((regs2 0xFFFF#32 0#32).reg 1#4).toNat : Int) - (0xFFFF#16).toNat = 0 := by decide

theorem witness_MultiplyResults :
    ((regs2 0x10000#32 0xFFFF8000#32).reg 1#4).toInt * ((regs2 0x10000#32 0xFFFF8000#32).reg 2#4).toInt =
      -2147483648 ∧
    ((regs2 0x10000#32 0#32).reg 1#4).toInt * (0x8000#16).toInt = -2147483648 ∧
    (((regs2 0xFFFF#32 0x10001#32).reg 1#4).toNat : Int) * ((regs2 0xFFFF#32 0x10001#32).reg 2#4).toNat =
      4294967295 ∧
    (((regs2 0x10001#32 0#32).reg 1#4).toNat : Int) * (0xFFFF#16).toNat = 4294967295 := by decide

/-- -2^31 by -1 (decision D11), and -7 by 2 under `toward_zero`. -/
theorem witness_SignedDivisionResults :
    (((regs2 0x80000000#32 0xFFFFFFFF#32).reg 1#4).toInt =
        2147483648 * ((regs2 0x80000000#32 0xFFFFFFFF#32).reg 2#4).toInt + 0 ∧
      (0 : Int).natAbs < ((regs2 0x80000000#32 0xFFFFFFFF#32).reg 2#4).toInt.natAbs ∧
      base.platform.divMinNeg1 = .wrap ∧ base.platform.divRound = .towardZero ∧
      0 ≤ 0 * ((regs2 0x80000000#32 0xFFFFFFFF#32).reg 1#4).toInt) ∧
    (((regs2 0xFFFFFFF9#32 0#32).reg 1#4).toInt = -3 * (2#16).toInt + -1 ∧
      (-1 : Int).natAbs < (2#16).toInt.natAbs ∧ 0 ≤ -1 * ((regs2 0xFFFFFFF9#32 0#32).reg 1#4).toInt) ∧
    (-1 : Int) ≠ 0 := by decide

/-- `DIV_ROUND = floor` and `DIV_MIN_NEG1 = refuse`. -/
def floorDivision (s : State) : State :=
  onPlatform { s.platform with divRound := .floor, divMinNeg1 := .refuse } s

/-- -7 by 2 rounded down; -2^31 by 1, which runs, and by -1, which is refused. -/
theorem witness_SignedDivisionResults_alternatives :
    ((floorDivision base).platform.divRound = .floor ∧ (-7 : Int) = -4 * 2 + 1 ∧
      (1 : Int).natAbs < (2 : Int).natAbs ∧ (0 : Int) ≤ 1 * 2) ∧
    ((floorDivision base).platform.divMinNeg1 = .refuse ∧ (1 : Int) ≠ -1 ∧
      ((floorDivision (regs2 0x80000000#32 0xFFFFFFFF#32)).reg 1#4).toInt = -2147483648 ∧
      ((floorDivision (regs2 0x80000000#32 0xFFFFFFFF#32)).reg 2#4).toInt = -1) := by decide

theorem witness_UnsignedDivisionResults :
    (regs2 0#32 1#32).reg 2#4 ≠ 0#32 ∧ (0xFFFF#16) ≠ 0#16 := by decide

/-- For the statements with `DecidedTrap`: `Rd` unchanged, and under `EXC_RD = any`. -/
theorem witness_DecidedTrap (a b : Word) :
    DecidedTrap (regs2 a b) ∧ (regs2 a b).platform.excRd = .unchanged ∧
      DecidedTrap (onPlatform { Platform.named with excRd := .any } (regs2 a b)) :=
  ⟨decided rfl, rfl, ⟨rfl, rfl, rfl, rfl⟩, rfl, .inl rfl⟩

/-- With and without a target, for the statements with `DecidedTrap`, `Raises` and `RaisesArith`. -/
theorem witness_HasTarget (a b : Word) :
    HasTarget (regs2 a b) ∧ DecidedTrap (unsetHandler (regs2 a b)) ∧
      ¬ HasTarget (unsetHandler (regs2 a b)) := ⟨.inl rfl, decided rfl, no_target (decided rfl).toDecidedEntry⟩

/-- The results nearest to the range, just outside it (those of `witness_SignedAddSubResults`,
`witness_UnsignedAddSubResults` and `witness_MultiplyResults` lie just inside). -/
theorem witness_OverflowTraps_signed :
    2147483647 < ((regs2 0x7FFFFFFF#32 1#32).reg 1#4).toInt + ((regs2 0x7FFFFFFF#32 1#32).reg 2#4).toInt ∧
    2147483647 < ((regs2 0x7FFFFFFF#32 0#32).reg 1#4).toInt + (1#16).toInt ∧
    ((regs2 0x80000000#32 1#32).reg 1#4).toInt - ((regs2 0x80000000#32 1#32).reg 2#4).toInt < -2147483648 ∧
    ((regs2 0x80000000#32 0#32).reg 1#4).toInt - (1#16).toInt < -2147483648 ∧
    2147483647 < ((regs2 0x10000#32 0x8000#32).reg 1#4).toInt * ((regs2 0x10000#32 0x8000#32).reg 2#4).toInt ∧
    2147483647 < ((regs2 0x80000000#32 0#32).reg 1#4).toInt * (0xFFFF#16).toInt := by decide

theorem witness_OverflowTraps_unsigned :
    4294967295 < (((regs2 0xFFFFFFFF#32 1#32).reg 1#4).toNat : Int) +
      ((regs2 0xFFFFFFFF#32 1#32).reg 2#4).toNat ∧
    4294967295 < (((regs2 0xFFFFFFFF#32 0#32).reg 1#4).toNat : Int) + (1#16).toNat ∧
    (((regs2 0#32 1#32).reg 1#4).toNat : Int) - ((regs2 0#32 1#32).reg 2#4).toNat < 0 ∧
    (((regs2 0#32 0#32).reg 1#4).toNat : Int) - (1#16).toNat < 0 ∧
    4294967295 < (((regs2 0x10000#32 0x10000#32).reg 1#4).toNat : Int) *
      ((regs2 0x10000#32 0x10000#32).reg 2#4).toNat ∧
    4294967295 < (((regs2 0x20000#32 0#32).reg 1#4).toNat : Int) * (0x8000#16).toNat := by decide

theorem witness_DivideByZeroTraps : (regs2 7#32 0#32).reg 2#4 = 0#32 := by decide

/-- The shift amounts 16 and 30; `$3` holds the power of two. -/
theorem witness_ShiftsAreMultiplicationAndDivision :
    (((regs2 0xFFFF#32 16#32).setReg 3#4 0x10000#32).reg 3#4).toNat =
      2 ^ ((((regs2 0xFFFF#32 16#32).setReg 3#4 0x10000#32).reg 2#4).toNat % 32) ∧
    (((regs2 0xFFFF#32 16#32).setReg 3#4 0x10000#32).reg 1#4).toNat *
      (((regs2 0xFFFF#32 16#32).setReg 3#4 0x10000#32).reg 3#4).toNat < 4294967296 ∧
    (((regs2 0xC0000000#32 30#32).setReg 3#4 0x40000000#32).reg 3#4).toNat =
      2 ^ ((((regs2 0xC0000000#32 30#32).setReg 3#4 0x40000000#32).reg 2#4).toNat % 32) ∧
    (((regs2 0xC0000000#32 30#32).setReg 3#4 0x40000000#32).reg 2#4).toNat % 32 < 31 ∧
    (((regs2 0xC0000000#32 30#32).setReg 3#4 0x40000000#32).reg 3#4).toInt ∣
      (((regs2 0xC0000000#32 30#32).setReg 3#4 0x40000000#32).reg 1#4).toInt ∧
    0 ≤ (((regs2 0x7FFFFFFF#32 30#32).setReg 3#4 0x40000000#32).reg 1#4).toInt := by decide

/-- Signs that agree and then differ, and a carry: each branch of the two overflow statements. -/
theorem witness_OverflowFromSignAndCarry :
    (((0x7FFFFFFF#32).msb = (1#32).msb ∧ (0x7FFFFFFF#32 + 1#32).msb ≠ (0x7FFFFFFF#32).msb) ∧
      ¬((0x7FFFFFFE#32).msb = (1#32).msb ∧ (0x7FFFFFFE#32 + 1#32).msb ≠ (0x7FFFFFFE#32).msb)) ∧
    ((0xFFFFFFFF#32).setWidth 33 + (1#32).setWidth 33).msb = true ∧
    ((0xFFFFFFFE#32).setWidth 33 + (1#32).setWidth 33).msb = false ∧
    (0#32).ult 1#32 = true ∧ (1#32).ult 1#32 = false := by decide

/-- The sign bits agree, and differ. -/
theorem witness_TestInstructionRelations :
    ((regs2 1#32 2#32).reg 1#4).msb = ((regs2 1#32 2#32).reg 2#4).msb ∧
    ((regs2 1#32 0x80000000#32).reg 1#4).msb ≠ ((regs2 1#32 0x80000000#32).reg 2#4).msb := by decide

/-- `PC_WRAP = refuse` at the last address. -/
theorem witness_JumpAndLinkResults :
    (noWrap (base.setPc 0xFFFFF#20)).platform.pcWrap = .refuse ∧
      (noWrap (base.setPc 0xFFFFF#20)).pc = 0xFFFFF#20 := ⟨rfl, rfl⟩

/-- The wrap at the end of the address space (V133), and the branch to the branch itself with the base
`pc`. -/
theorem witness_BranchResults :
    (1048577 = ((base.setPc 0xFFFFE#20).pc.toNat : Int) + (if base.platform.branchBase = .next then 1 else 0)
        + (2#20).toInt ∧
      ((0x00001#20).toNat : Int) = 1048577 % 1048576 ∧
      (0xFFFFF#20).toNat = ((base.setPc 0xFFFFE#20).pc.toNat + 1) % 1048576 ∧
      base.platform.pcWrap = .wrap) ∧
    (256 = (base.pc.toNat : Int) + (if BranchBase.current = .next then 1 else 0) + (0#20).toInt ∧
      ((0x00100#20).toNat : Int) = 256 % 1048576) := by decide

/-- Under `PC_WRAP = refuse`: the sums at both ends of the address space, and just outside. -/
theorem witness_BranchResults_refuse :
    (noWrap base).platform.pcWrap = .refuse ∧
    (1048575 = ((base.setPc 0xFFFFE#20).pc.toNat : Int) + 1 + (0#20).toInt) ∧
    (1048576 = ((base.setPc 0xFFFFE#20).pc.toNat : Int) + 1 + (1#20).toInt) ∧
    (0 = ((base.setPc 0#20).pc.toNat : Int) + 1 + (0xFFFFF#20).toInt) ∧
    (-1 = ((base.setPc 0#20).pc.toNat : Int) + 1 + (0xFFFFE#20).toInt) := by decide

/-- `EA_HIGH_BITS` ignore, with any address; refuse, with the last address and the first beyond. -/
def lowAddresses (s : State) : State := onPlatform { s.platform with eaHighBits := .refuse } s

theorem witness_Reachable :
    Reachable 0xFFFFFFFF#32 0#20 base ∧ Reachable 0x000FFFFF#32 0#20 (lowAddresses base) ∧
      (lowAddresses base).platform.eaHighBits = .refuse ∧
      1048576 ≤ (effectiveAddress 0x000FFFFF#32 1#20).toNat ∧
      ¬ Reachable 0x000FFFFF#32 1#20 (lowAddresses base) :=
  ⟨.inl rfl, .inr (by decide), rfl, by decide, by
    intro h; rcases h with h | h <;> revert h <;> decide⟩

/-- Ram and rom; a stored word, and a word nothing was stored to. -/
theorem witness_LoadFromStorage :
    (onMap (oneAddress .ram) base).platform.memMap.kindAt (accessAddress (base.reg 0#4) 0x01000#20) =
      .ram ∧
    (onMap (oneAddress .rom) base).platform.memMap.kindAt (accessAddress (base.reg 0#4) 0x01000#20) =
      .rom ∧
    (base.placeWord 0x01000#20 7#32).mem.word? (accessAddress (base.reg 0#4) 0x01000#20) = some 7#32 ∧
    ∀ k, k < 4 → base.mem.read? (cellOf (accessAddress (base.reg 0#4) 0x01000#20) k) = none := by decide

/-- The first address, reached by a sum that wraps (V146). -/
theorem witness_StoreToRam :
    (onMap (oneAddress .device) base).platform.memMap.kindAt
        (accessAddress ((base.setReg 1#4 0x00080001#32).reg 1#4) 0x7FFFF#20) = .ram ∧
      accessAddress ((base.setReg 1#4 0x00080001#32).reg 1#4) 0x7FFFF#20 = 0#20 := by decide

theorem witness_DeviceAccesses :
    (onMap (oneAddress .device) base).platform.memMap.kindAt
      (accessAddress ((onMap (oneAddress .device) base).reg 0#4) 0x01000#20) = .device := by decide

theorem witness_AccessesWithoutBehaviourStop :
    (onMap (oneAddress .absent) base).platform.memMap.kindAt
      (accessAddress ((onMap (oneAddress .absent) base).reg 0#4) 0x01000#20) = .absent ∧
    (onMap (oneAddress .rom) base).platform.memMap.kindAt
      (accessAddress ((onMap (oneAddress .rom) base).reg 0#4) 0x01000#20) = .rom := by decide

/-- Two later writes, to the words on either side. -/
theorem witness_WordWriteThenRead_later :
    (∀ x ∈ [((0x00FFF#20 : Addr), 7#32), (0x01001#20, 9#32)], x.1 ≠ 0x01000#20) ∧
    laterWrites [(0x00FFF#20, 7#32), (0x01001#20, 9#32)] base =
      .ok (((((base.setMem (base.mem.writeWord 0x00FFF#20 7#32)).noteStore 0x00FFF#20).setMem
        ((base.mem.writeWord 0x00FFF#20 7#32).writeWord 0x01001#20 9#32))).noteStore 0x01001#20) ∧
    base.platform.fetchCoherence = .coherent := ⟨by simp, rfl, rfl⟩

/-- The four kinds at 0x1000, and ram at the addresses on either side. -/
theorem witness_WordWriteThenRead :
    (oneAddress .absent).kindAt 0x00FFF#20 = .ram ∧ (oneAddress .absent).kindAt 0x01001#20 = .ram ∧
    (oneAddress .rom).kindAt 0x01000#20 = .rom ∧ (oneAddress .absent).kindAt 0x01000#20 = .absent ∧
    (oneAddress .device).kindAt 0x01000#20 = .device := by decide

/-- V145: the state that stores `j 0x00100` at the next instruction's address. -/
def storing : State := base.setReg 3#4 0x40000100#32

/-- `storing` after its `sw`. -/
def afterStore : State :=
  ((storing.setMem (storing.mem.writeWord 0x00101#20 0x40000100#32)).noteStore 0x00101#20).advance

/-- `IFETCH_COHERENT` refuse_modified. -/
def refuseModified (s : State) : State :=
  onPlatform { s.platform with fetchCoherence := .refuseModified } s

theorem witness_StoreSeenByNextFetch :
    exec (.sw 3#4 0#4 0x00101#20) storing = .next afterStore ∧
    accessAddress (storing.reg 0#4) 0x00101#20 = storing.pc + 1#20 ∧
    storing.platform.memMap.kindAt (storing.pc + 1#20) = .ram ∧
    NoInterrupt afterStore ∧ MayStep afterStore ∧
    storing.platform.fetchCoherence = .coherent ∧ storing.reg 3#4 = encode (.j 0x00100#20) :=
  ⟨rfl, by decide, by decide, .inl rfl, .inl rfl, rfl, by decide⟩

theorem witness_StoreSeenByNextFetch_refuse :
    exec (.sw 3#4 0#4 0x00101#20) (refuseModified storing) = .next (refuseModified afterStore) ∧
    NoInterrupt (refuseModified afterStore) ∧ MayStep (refuseModified afterStore) ∧
    (refuseModified storing).platform.fetchCoherence = .refuseModified :=
  ⟨rfl, .inl rfl, .inl rfl, rfl⟩

/-- Kernel mode, and user mode under `unrestricted`: for `MoveToSpecialResults`,
`MoveFromSpecialResults`, `SpecialMoveRefusals` and `ReturnFromExceptionResult`. -/
theorem witness_MayUseSpecials :
    MayUseSpecials base ∧ HasSuccessor base ∧ base.platform.spr = SprLayout.profile ∧
    MayUseSpecials (inUserMode .unrestricted base) ∧
    (inUserMode .unrestricted base).platform.spr = SprLayout.profile :=
  ⟨.inl rfl, .inl rfl, rfl, .inr (by decide), rfl⟩

/-- The register numbers where the clauses begin and end; none falls under two of them. -/
theorem witness_SpecialMoveRefusals :
    ((0#4).toNat < 4 ∧ (3#4).toNat < 4 ∧ 14 ≤ (14#4).toNat ∧ 14 ≤ (15#4).toNat) ∧
    ∀ n : Reg, ¬((n.toNat < 4 ∨ 14 ≤ n.toNat) ∧ (n = 5#4 ∨ n = 6#4 ∨ n = 7#4)) := by decide

theorem witness_UserModeProtection :
    DecidedTrap (inUserMode .gpf base) ∧
    (inUserMode .gpf base).ku = false ∧ (inUserMode .gpf base).platform.userMode = .gpf ∧
    HasTarget (inUserMode .gpf base) :=
  ⟨⟨⟨rfl, rfl, rfl, rfl⟩, rfl, .inl rfl⟩, rfl, rfl, .inl rfl⟩

/-- The alternatives of D20 and D21. -/
theorem witness_BreakAndSyscallEnter :
    DecidedTrap base ∧ HasTarget base ∧ DecidedTrap (unsetHandler base) ∧
      ¬ HasTarget (unsetHandler base) ∧
    (onPlatform { Platform.named with earValue := .faulting, excHandler := .fixed 0x00200#20 }
      base).platform.excEntry = EntryStep.sequence ∧
    (onPlatform { Platform.named with earValue := .faulting, excHandler := .fixed 0x00200#20 }
      base).platform.earValue = .faulting ∧
    (onPlatform { Platform.named with earValue := .faulting, excHandler := .fixed 0x00200#20 }
      base).platform.excHandler = .fixed 0x00200#20 :=
  ⟨decided rfl, .inl rfl, decided rfl, no_target (decided rfl).toDecidedEntry, rfl, rfl, rfl⟩

theorem witness_EntryThenReturn :
    base.platform.kuKernel = true ∧
    exec .syscall base = .next (base.enter 0x2000#32 (base.pc + 1#20)) ∧
      Entered 0x2000#32 (base.pc + 1#20) base (base.enter 0x2000#32 (base.pc + 1#20)) :=
  ⟨rfl, rfl, base.entered_enter (decided rfl).toDecidedEntry _ _⟩

/-- The word `add $3, $1, $2` lies at `pc`; interrupts are off, or every line is masked. -/
theorem witness_StepRunsDecodedInstruction :
    NoInterrupt (running 0x03100002) ∧
    NoInterrupt { running 0x03100002 with ie := true, irq := 0x05#8, imask := 0x02#8 } ∧
    WordAtPc 0x03100002#32 (running 0x03100002) ∧ MayStep (running 0x03100002) ∧
    (running 0x03100002).decode 0x03100002#32 = .ok (.add 3#4 1#4 2#4) ∧
    Instr.wellFormedIn base.platform.spr (.add 3#4 1#4 2#4) = true ∧
    0x03100002#32 = encode (.add 3#4 1#4 2#4) :=
  ⟨.inl rfl, .inr (by decide), ⟨.inl (by decide), by decide, .inl rfl⟩, .inl rfl, by decide, by decide,
    by decide⟩

/-- Line 7 alone, driven by the environment in this step. -/
theorem witness_InterruptEntry :
    DecidedEntry { base with ie := true, imask := 0x80#8, lineFeed := [0x80#8] } ∧
    HasTarget { base with ie := true, imask := 0x80#8, lineFeed := [0x80#8] } ∧
    ({ base with ie := true, imask := 0x80#8, lineFeed := [0x80#8] } : State).ie = true ∧
    linesAt { base with ie := true, imask := 0x80#8, lineFeed := [0x80#8] } &&& 0x80#8 ≠ 0#8 :=
  ⟨(decided rfl).toDecidedEntry, .inl rfl, rfl, by decide⟩

theorem witness_ReservedWordPolicies :
    NoInterrupt (running 0xD0000000) ∧ WordAtPc 0xD0000000#32 (running 0xD0000000) ∧
    MayStep (running 0xD0000000) ∧
    (running 0xD0000000).decode 0xD0000000#32 = .error .reservedOpcode ∧
    (running 0xD0000000).platform.reserved = .refuse :=
  ⟨.inl rfl, ⟨.inl (by decide), by decide, .inl rfl⟩, .inl rfl, by decide, rfl⟩

/-- The state of `witness_ReservedWordPolicies` under `RESERVED_POLICY = gpf`. -/
def reservedGpf : State := onPlatform { Platform.named with reserved := .gpf } (running 0xD0000000)

theorem witness_ReservedWordPolicies_gpf :
    NoInterrupt reservedGpf ∧ WordAtPc 0xD0000000#32 reservedGpf ∧ MayStep reservedGpf ∧
    reservedGpf.decode 0xD0000000#32 = .error .reservedOpcode ∧ reservedGpf.platform.reserved = .gpf ∧
    DecidedTrap reservedGpf ∧ HasTarget reservedGpf :=
  ⟨.inl rfl, ⟨.inl (by decide), by decide, .inl rfl⟩, .inl rfl, by decide, rfl,
    ⟨⟨rfl, rfl, rfl, rfl⟩, rfl, .inl rfl⟩, .inl rfl⟩

/-- The states of `UserModeProtection`, `InterruptEntry` and `ReservedWordPolicies` where `$evec` was
never written. -/
theorem witness_no_target :
    (DecidedTrap (unsetHandler (inUserMode .gpf base)) ∧ ¬ HasTarget (unsetHandler (inUserMode .gpf base)) ∧
      (unsetHandler (inUserMode .gpf base)).ku = false ∧
      (unsetHandler (inUserMode .gpf base)).platform.userMode = .gpf) ∧
    (DecidedEntry (unsetHandler { base with ie := true, imask := 1#8, irq := 1#8 }) ∧
      ¬ HasTarget (unsetHandler { base with ie := true, imask := 1#8, irq := 1#8 }) ∧
      (unsetHandler { base with ie := true, imask := 1#8, irq := 1#8 }).ie = true ∧
      linesAt (unsetHandler { base with ie := true, imask := 1#8, irq := 1#8 }) &&& 1#8 ≠ 0#8) ∧
    (NoInterrupt (unsetHandler reservedGpf) ∧ WordAtPc 0xD0000000#32 (unsetHandler reservedGpf) ∧
      MayStep (unsetHandler reservedGpf) ∧ DecidedTrap (unsetHandler reservedGpf) ∧
      (unsetHandler reservedGpf).decode 0xD0000000#32 = .error .reservedOpcode ∧
      (unsetHandler reservedGpf).platform.reserved = .gpf ∧ ¬ HasTarget (unsetHandler reservedGpf)) :=
  ⟨⟨⟨⟨rfl, rfl, rfl, rfl⟩, rfl, .inl rfl⟩, no_target ⟨rfl, rfl, rfl, rfl⟩, rfl, rfl⟩,
    ⟨(decided rfl).toDecidedEntry, no_target (decided rfl).toDecidedEntry, rfl, by decide⟩,
    .inl rfl, ⟨.inl (by decide), by decide, .inl rfl⟩, .inl rfl, ⟨⟨rfl, rfl, rfl, rfl⟩, rfl, .inl rfl⟩,
    by decide, rfl, no_target ⟨rfl, rfl, rfl, rfl⟩⟩

/-- `pc` at 0x1000 on each map. -/
theorem witness_StepsWithoutBehaviourStop :
    NoInterrupt (base.setPc 0x01000#20) ∧ MayStep (base.setPc 0x01000#20) ∧
    (onMap (oneAddress .absent) (base.setPc 0x01000#20)).platform.memMap.kindAt 0x01000#20 = .absent ∧
    (onMap (oneAddress .device) (base.setPc 0x01000#20)).platform.memMap.kindAt 0x01000#20 = .device ∧
    (onMap (oneAddress .rom) (base.setPc 0x01000#20)).platform.memMap.kindAt 0x01000#20 = .rom ∧
    (base.setPc 0x01000#20).platform.memMap.kindAt 0x01000#20 = .ram ∧
    (base.setPc 0x01000#20).mem.word? 0x01000#20 = none :=
  ⟨.inl rfl, .inl rfl, by decide, by decide, by decide, by decide, by decide⟩

/-- A stored word under refuse_modified; user mode under `refuse`. -/
theorem witness_StepsWithoutBehaviourStop_refuse :
    (NoInterrupt (refuseModified afterStore) ∧ MayStep (refuseModified afterStore) ∧
      (refuseModified afterStore).platform.memMap.kindAt (refuseModified afterStore).pc = .ram ∧
      (refuseModified afterStore).mem.word? (refuseModified afterStore).pc ≠ none ∧
      (refuseModified afterStore).platform.fetchCoherence = .refuseModified ∧
      (refuseModified afterStore).pc ∈ (refuseModified afterStore).stored) ∧
    (NoInterrupt (inUserMode .refuse base) ∧
      (inUserMode .refuse base).ku ≠ (inUserMode .refuse base).platform.kuKernel ∧
      (inUserMode .refuse base).platform.userMode = .refuse) :=
  ⟨⟨.inl rfl, .inl rfl, by decide, by decide, rfl, by decide⟩, .inl rfl, by decide, rfl⟩

theorem witness_EncodeOfDecode : decodeWord 0x9FE00000#32 = .ok (.sw 15#4 14#4 0#20) := by decide

theorem witness_OpcodeTableExact : ⟨"rfe", 0x200E0000#32, 0xFFFFFFFF#32⟩ ∈ opcodeRows := by decide

/-- `base` meets the invariant, and so it does with a word placed at `pc`. -/
theorem base_inv : Inv base where
  canonical := Memory.wf_nil
  wholeWords _ _ _ := rfl
  onlyStorage _ _ _ h := by cases h
  zeroEntry := by decide

theorem running_inv (w : Nat) : Inv (running w) :=
  (base_inv.writeWord (a := base.pc) (BitVec.ofNat 32 (w % 2 ^ 32)) (.inl (by decide))).congr rfl rfl rfl

/-- A step that stores: `sw $sp, 4($0)` (0x9E000004). -/
theorem witness_StepKeepsInvariant :
    Inv (running 0x9E000004) ∧
    step (running 0x9E000004) = .next
      (((withLines (running 0x9E000004)).setMem
        ((running 0x9E000004).mem.writeWord 0x00004#20 0xFFFFFFFF#32)).noteStore 0x00004#20).advance :=
  ⟨running_inv _, rfl⟩

theorem witness_WellFormedNeverStops (a : Addr) :
    (base.platform.memMap.kindAt a = .ram ∧ base.platform.pcWrap = .wrap ∧
      base.platform.eaHighBits = .ignore ∧ base.platform.divMinNeg1 = .wrap ∧
      (HasTarget base ∧ ¬ HasTarget (unsetHandler base)) ∧
      Instr.wellFormedIn base.platform.spr (.movgs 4#4 1#4) = true ∧
      Instr.wellFormedIn base.platform.spr (.movsg 1#4 13#4) = true) ∧
    ((noWrap (base.setPc 0xFFFFF#20)).platform.pcWrap = .refuse ∧
      (noWrap (base.setPc 0xFFFFF#20)).platform.earValue = .next ∧
      (noWrap (base.setPc 0xFFFFF#20)).pc = 0xFFFFF#20) :=
  ⟨⟨rfl, rfl, rfl, rfl, ⟨.inl rfl, no_target (decided rfl).toDecidedEntry⟩, by decide, by decide⟩, rfl, rfl, rfl⟩

/-- A step by `add`: for `OneGeneralRegisterAtMost` and `LinesAreTheEnvironments`. -/
theorem witness_OneGeneralRegisterAtMost :
    step ((regs2 5#32 7#32).withFetchWord 32 0x03100002) = .next
      ((withLines ((regs2 5#32 7#32).withFetchWord 32 0x03100002)).retire 3#4 12#32) := rfl

/-- The clause about steps that write no register: `syscall` changes `$estat`, and a second one does not;
an interrupt is taken; `rfe` lies at `pc`. -/
theorem witness_OneGeneralRegisterAtMost_none :
    (step (running 0x200D0000) = .next ((withLines (running 0x200D0000)).raise .systemCall) ∧
      ((running 0x200D0000).raise .systemCall).estat ≠ (running 0x200D0000).estat ∧
      (running 0x200D0000).platform.excRd = .unchanged) ∧
    (step (withEstat 0x2000#32 (running 0x200D0000)) =
        .next ((withLines (withEstat 0x2000#32 (running 0x200D0000))).raise .systemCall) ∧
      WordAtPc 0x200D0000#32 (withEstat 0x2000#32 (running 0x200D0000)) ∧
      (running 0x200D0000).decode 0x200D0000#32 = .ok .syscall) ∧
    (step { base with ie := true, imask := 1#8, irq := 1#8 } = .next
        (withLines { base with ie := true, imask := 1#8, irq := 1#8 }).interrupt ∧
      ¬NoInterrupt { base with ie := true, imask := 1#8, irq := 1#8 }) ∧
    (step (running 0x200E0000) = .next (withLines (running 0x200E0000)).returnFrom ∧
      WordAtPc 0x200E0000#32 (running 0x200E0000)) :=
  ⟨⟨rfl, by decide, rfl⟩, ⟨rfl, ⟨.inl (by decide), by decide, .inl rfl⟩, by decide⟩,
    ⟨rfl, fun h => by rcases h with h | h <;> revert h <;> decide⟩,
    rfl, .inl (by decide), by decide, .inl rfl⟩

/-- A step by `sw`, as in `witness_StepKeepsInvariant`. -/
theorem witness_MemoryChangesOnlyBySw :
    step (running 0x9E000004) = .next
      (((withLines (running 0x9E000004)).setMem
        ((running 0x9E000004).mem.writeWord 0x00004#20 0xFFFFFFFF#32)).noteStore 0x00004#20).advance := rfl

/-- A step by `movgs $evec, $sp` (0x38EC0000). -/
theorem witness_HandlerRegistersChangeOnlyByMovgs :
    step (running 0x38EC0000) = .next
      ((withLines (running 0x38EC0000)).setSpecial .evec 0xFFFFFFFF#32).advance := rfl

/-- A step by `break`. -/
theorem witness_CauseChangesOnlyAtEntry :
    DecidedEntry (running 0x200C0000) ∧ (running 0x200C0000).platform.spr = SprLayout.profile ∧
    (running 0x200C0000).platform.excRd = .unchanged ∧
    step (running 0x200C0000) = .next ((withLines (running 0x200C0000)).raise .breakpoint) :=
  ⟨(decided rfl).toDecidedEntry, rfl, rfl, rfl⟩

/-- `syscall` in user mode. -/
theorem witness_UserModeLeftOnlyByEntry :
    DecidedEntry (inUserMode .gpf (running 0x200D0000)) ∧
    step (inUserMode .gpf (running 0x200D0000)) = .next
      ((withLines (inUserMode .gpf (running 0x200D0000))).raise .systemCall) ∧
    (inUserMode .gpf (running 0x200D0000)).platform.userMode ≠ .unrestricted ∧
    (inUserMode .gpf (running 0x200D0000)).ku = false ∧
    ((withLines (inUserMode .gpf (running 0x200D0000))).raise .systemCall).ku = true :=
  ⟨⟨rfl, rfl, rfl, rfl⟩, rfl, by decide, rfl, rfl⟩

/-- `rfe` with `OKU` = 0, and `movgs $cctrl, $0` (0x340C0000). -/
theorem witness_KernelModeLeftOnlyByRfeOrMovgs :
    (DecidedEntry (running 0x200E0000) ∧ (running 0x200E0000).platform.spr = SprLayout.profile) ∧
    (step (running 0x200E0000) = .next (withLines (running 0x200E0000)).returnFrom ∧
      (running 0x200E0000).ku = true ∧ (withLines (running 0x200E0000)).returnFrom.ku = false) ∧
    (step (running 0x340C0000) = .next ((withLines (running 0x340C0000)).setCctrl 0#32).advance ∧
      (running 0x340C0000).ku = true ∧
      ((withLines (running 0x340C0000)).setCctrl 0#32).advance.ku = false) :=
  ⟨⟨(decided rfl).toDecidedEntry, rfl⟩, ⟨rfl, rfl, rfl⟩, rfl, rfl, rfl⟩

/-- A step that takes a line value from the feed and accesses a device word: `lw $3, 0x1000($0)`. -/
theorem witness_LinesAreTheEnvironments :
    step { onMap (oneAddress .device) (running 0x83001000) with lineFeed := [0x01#8, 0x02#8] } = .next
      (((withLines { onMap (oneAddress .device) (running 0x83001000) with
          lineFeed := [0x01#8, 0x02#8] }).logDevice (.read 0x01000#20 (Config.draw 0))).drawn.retire
        3#4 (Config.draw 0)) := rfl

end Sys2Proof.Tests
end

section
/-! PROOFS. Immediate operands (spec/30_encoding.md R100 to R102): an immediate form is the register form
on the extended immediate, and a shift looks at five bits of its amount. -/

namespace Sys2Proof.Machine

/-! ### Words that hold an extended immediate -/

theorem eq_sext_of_getLsbD {v : Word} {imm : Imm}
    (h : ∀ k, k < 32 → v.getLsbD k = imm.getLsbD (min k 15)) : v = sext imm :=
  BitVec.eq_of_getLsbD_eq fun k hk => (h k hk).trans (sext_getLsbD imm hk).symm

/-- Above bit 15 an immediate has no bits, so the bound on `k` says nothing more. -/
theorem eq_zext_of_getLsbD {v : Word} {imm : Imm}
    (h : ∀ k, v.getLsbD k = (decide (k < 16) && imm.getLsbD k)) : v = zext imm := by
  refine BitVec.eq_of_getLsbD_eq fun k _ => ?_
  rw [h, zext_getLsbD]
  by_cases hk : k < 16
  · simp [hk]
  · simp [hk, BitVec.getLsbD_of_ge imm k (by omega)]

theorem sext_toInt_bounds (imm : Imm) : -32768 ≤ (sext imm).toInt ∧ (sext imm).toInt ≤ 32767 := by
  have lo : -32768 ≤ imm.toInt := BitVec.le_toInt imm
  have hi : imm.toInt < 32768 := BitVec.toInt_lt
  rw [sext_toInt]
  omega

theorem zext_toNat_le (imm : Imm) : (zext imm).toNat ≤ 65535 := by
  have hi := imm.isLt
  rw [zext_toNat]
  omega

@[simp] theorem upperHalf_zext (imm : Imm) : (zext imm).extractLsb' 16 16 = 0#16 := by
  refine BitVec.eq_of_getLsbD_eq fun k _ => ?_
  simp

/-! ### Immediate forms as register forms

A register form reads `Rt` only through its value, so the two meanings agree once `Rt` is rewritten
to the extended immediate. -/

section ImmediateForms

variable {rd rs rt : Reg} {imm : Imm} {s : State}

theorem exec_signedArithImmediate (h : s.reg rt = sext imm) :
    exec (.addi rd rs imm) s = exec (.add rd rs rt) s ∧
    exec (.subi rd rs imm) s = exec (.sub rd rs rt) s ∧
    exec (.multi rd rs imm) s = exec (.mult rd rs rt) s := by
  simp only [exec, execAddi, execAdd, execSubi, execSub, execMulti, execMult, h, and_self]

theorem exec_signedDivideImmediate (h : s.reg rt = sext imm) :
    exec (.divi rd rs imm) s = exec (.div rd rs rt) s ∧
    exec (.remi rd rs imm) s = exec (.rem rd rs rt) s := by
  simp only [exec, execDivi, execDiv, execRemi, execRem, h, and_self]

theorem exec_signedTestImmediate (h : s.reg rt = sext imm) :
    exec (.slti rd rs imm) s = exec (.slt rd rs rt) s ∧
    exec (.sgti rd rs imm) s = exec (.sgt rd rs rt) s ∧
    exec (.slei rd rs imm) s = exec (.sle rd rs rt) s ∧
    exec (.sgei rd rs imm) s = exec (.sge rd rs rt) s ∧
    exec (.seqi rd rs imm) s = exec (.seq rd rs rt) s ∧
    exec (.snei rd rs imm) s = exec (.sne rd rs rt) s := by
  simp only [exec, execSlti, execSlt, execSgti, execSgt, execSlei, execSle, execSgei, execSge,
    execSeqi, execSeq, execSnei, execSne, h, and_self]

theorem exec_unsignedArithImmediate (h : s.reg rt = zext imm) :
    exec (.addui rd rs imm) s = exec (.addu rd rs rt) s ∧
    exec (.subui rd rs imm) s = exec (.subu rd rs rt) s ∧
    exec (.multui rd rs imm) s = exec (.multu rd rs rt) s := by
  simp only [exec, execAddui, execAddu, execSubui, execSubu, execMultui, execMultu, h, and_self]

theorem exec_unsignedDivideImmediate (h : s.reg rt = zext imm) :
    exec (.divui rd rs imm) s = exec (.divu rd rs rt) s ∧
    exec (.remui rd rs imm) s = exec (.remu rd rs rt) s := by
  simp only [exec, execDivui, execDivu, execRemui, execRemu, h, and_self]

theorem exec_logicalImmediate (h : s.reg rt = zext imm) :
    exec (.andi rd rs imm) s = exec (.and rd rs rt) s ∧
    exec (.ori rd rs imm) s = exec (.or rd rs rt) s ∧
    exec (.xori rd rs imm) s = exec (.xor rd rs rt) s := by
  simp only [exec, execAndi, execAnd, execOri, execOr, execXori, execXor, h, and_self]

theorem exec_unsignedTestImmediate (h : s.reg rt = zext imm) :
    exec (.sltui rd rs imm) s = exec (.sltu rd rs rt) s ∧
    exec (.sgtui rd rs imm) s = exec (.sgtu rd rs rt) s ∧
    exec (.sleui rd rs imm) s = exec (.sleu rd rs rt) s ∧
    exec (.sgeui rd rs imm) s = exec (.sgeu rd rs rt) s ∧
    exec (.sequi rd rs imm) s = exec (.sequ rd rs rt) s ∧
    exec (.sneui rd rs imm) s = exec (.sneu rd rs rt) s := by
  simp only [exec, execSltui, execSltu, execSgtui, execSgtu, execSleui, execSleu, execSgeui,
    execSgeu, execSequi, execSequ, execSneui, execSneu, h, and_self]

end ImmediateForms

/-! ### The upper half of a logical immediate result -/

section LogicalUpperHalf

variable {s : State}

theorem completes_andi (hs : HasSuccessor s) (rd rs : Reg) (imm : Imm) :
    ∃ v, Completes (.andi rd rs imm) s rd v ∧ v.extractLsb' 16 16 = 0#16 :=
  ⟨s.reg rs &&& zext imm, completes_of_finish hs rfl, by simp [BitVec.extractLsb'_and]⟩

theorem completes_ori (hs : HasSuccessor s) (rd rs : Reg) (imm : Imm) :
    ∃ v, Completes (.ori rd rs imm) s rd v ∧
      v.extractLsb' 16 16 = (s.reg rs).extractLsb' 16 16 :=
  ⟨s.reg rs ||| zext imm, completes_of_finish hs rfl, by simp [BitVec.extractLsb'_or]⟩

theorem completes_xori (hs : HasSuccessor s) (rd rs : Reg) (imm : Imm) :
    ∃ v, Completes (.xori rd rs imm) s rd v ∧
      v.extractLsb' 16 16 = (s.reg rs).extractLsb' 16 16 :=
  ⟨s.reg rs ^^^ zext imm, completes_of_finish hs rfl, by simp [BitVec.extractLsb'_xor]⟩

end LogicalUpperHalf

/-! ### Shifts, the amount as a number modulo 32 -/

section Shifts

variable (rd rs rt : Reg) (imm : Imm) (s : State)

theorem exec_slli :
    exec (.slli rd rs imm) s = s.finish rd (s.reg rs <<< (imm.toNat % 32)) := by
  rw [← shiftOfImm_eq]; rfl

theorem exec_srli :
    exec (.srli rd rs imm) s = s.finish rd (s.reg rs >>> (imm.toNat % 32)) := by
  rw [← shiftOfImm_eq]; rfl

theorem exec_srai :
    exec (.srai rd rs imm) s = s.finish rd ((s.reg rs).sshiftRight (imm.toNat % 32)) := by
  rw [← shiftOfImm_eq]; rfl

theorem exec_sll :
    exec (.sll rd rs rt) s = s.finish rd (s.reg rs <<< ((s.reg rt).toNat % 32)) := by
  rw [← shiftOfWord_eq]; rfl

theorem exec_srl :
    exec (.srl rd rs rt) s = s.finish rd (s.reg rs >>> ((s.reg rt).toNat % 32)) := by
  rw [← shiftOfWord_eq]; rfl

theorem exec_sra :
    exec (.sra rd rs rt) s = s.finish rd ((s.reg rs).sshiftRight ((s.reg rt).toNat % 32)) := by
  rw [← shiftOfWord_eq]; rfl

end Shifts

/-! ### The obligations -/

/-- Settles O10: the condition on `Rt` says that it holds `sext imm`. -/
theorem signExtendedImmediateForms : Obligations.SignExtendedImmediateForms := by
  intro rd rs rt imm s bits
  have value : s.reg rt = sext imm := eq_sext_of_getLsbD bits
  obtain ⟨lo, hi⟩ : -32768 ≤ (s.reg rt).toInt ∧ (s.reg rt).toInt ≤ 32767 :=
    value ▸ sext_toInt_bounds imm
  obtain ⟨add, sub, mult⟩ := exec_signedArithImmediate (rd := rd) (rs := rs) value
  obtain ⟨div, rem⟩ := exec_signedDivideImmediate (rd := rd) (rs := rs) value
  exact ⟨lo, hi, add, sub, mult, div, rem, exec_signedTestImmediate value⟩

/-- Settles O11: the condition on `Rt` says that it holds `zext imm`, whose upper half is zero. -/
theorem zeroExtendedImmediateForms : Obligations.ZeroExtendedImmediateForms := by
  intro rd rs rt imm s bits
  have value : s.reg rt = zext imm := eq_zext_of_getLsbD bits
  have bound : (s.reg rt).toNat ≤ 65535 := value ▸ zext_toNat_le imm
  obtain ⟨add, sub, mult⟩ := exec_unsignedArithImmediate (rd := rd) (rs := rs) value
  obtain ⟨div, rem⟩ := exec_unsignedDivideImmediate (rd := rd) (rs := rs) value
  obtain ⟨and, or, xor⟩ := exec_logicalImmediate (rd := rd) (rs := rs) value
  obtain ⟨lt, gt, le, ge, eq, ne⟩ := exec_unsignedTestImmediate (rd := rd) (rs := rs) value
  refine ⟨bound, add, sub, mult, div, rem, and, or, xor, lt, gt, le, ge, eq, ne, fun hs => ?_⟩
  obtain ⟨u, andi, andiUpper⟩ := completes_andi hs rd rs imm
  obtain ⟨v, ori, oriUpper⟩ := completes_ori hs rd rs imm
  obtain ⟨x, xori, xoriUpper⟩ := completes_xori hs rd rs imm
  exact ⟨u, v, x, andi, andiUpper, ori, oriUpper, xori, xoriUpper⟩

/-- Settles O12: each shift is an equation in its amount modulo 32, so equal residues give equal
answers. -/
theorem shiftAmountsUseFiveBits : Obligations.ShiftAmountsUseFiveBits := by
  intro rd rs rt ru imm jmm s
  refine ⟨fun hs => ⟨?_, ?_, ?_, ?_, ?_, ?_⟩, fun sameImm => ?_, fun sameReg => ?_,
    fun sameAmount => ?_⟩
  · exact completes_of_finish hs (exec_slli rd rs imm s)
  · exact completes_of_finish hs (exec_srli rd rs imm s)
  · exact completes_of_finish hs (exec_srai rd rs imm s)
  · exact completes_of_finish hs (exec_sll rd rs rt s)
  · exact completes_of_finish hs (exec_srl rd rs rt s)
  · exact completes_of_finish hs (exec_sra rd rs rt s)
  · simp only [exec_slli, exec_srli, exec_srai, sameImm, and_self]
  · simp only [exec_sll, exec_srl, exec_sra, sameReg, and_self]
  · simp only [exec_slli, exec_srli, exec_srai, exec_sll, exec_srl, exec_sra, sameAmount, and_self]

end Sys2Proof.Machine
end

section
/-! PROOFS. Words and instructions (spec/30_encoding.md R91 to R97): decoding and encoding undo each
other, so the word of an instruction is the one that `encode` builds. -/

namespace Sys2Proof

variable {w : Word} {i j : Instr}

/-! ### When a constant field lets a word through (spec/30_encoding.md R108) -/

theorem withZeros_eq_ok : withZeros w i = .ok j ↔ immOf w = 0#12 ++ rtOf w ∧ i = j := by
  have zeros : immOf w = 0#12 ++ rtOf w ↔ zerosOf w = 0#12 := by
    rw [immOf_eq, BitVec.append_left_inj]
  rw [withZeros, zeros]
  split <;> simp [*]

theorem exceptionForm_eq_ok :
    exceptionForm w i = .ok j ↔ (rdOf w = 0#4 ∧ rsOf w = 0#4 ∧ immOf w = 0#16) ∧ i = j := by
  rw [exceptionForm]
  split <;> simp [*]

theorem specialMove_eq_ok : specialMove w i = .ok j ↔ immOf w = 0#16 ∧ i = j := by
  rw [specialMove]
  split <;> simp [*]

theorem absoluteJump_eq_ok :
    absoluteJump w i = .ok j ↔ (rdOf w = 0#4 ∧ rsOf w = 0#4) ∧ i = j := by
  rw [absoluteJump]
  split <;> simp [*]

theorem registerJump_eq_ok :
    registerJump w i = .ok j ↔ (rdOf w = 0#4 ∧ addrOf w = 0#20) ∧ i = j := by
  rw [registerJump]
  split <;> simp [*]

theorem relativeBranch_eq_ok : relativeBranch w i = .ok j ↔ rdOf w = 0#4 ∧ i = j := by
  rw [relativeBranch]
  split <;> simp [*]

/-! ### Reading back what a format's decoder answers

Each branch of a decoder knows the number of the opcode or of the function; the field is that number. -/

theorem eq_ofNat_of_toNat_eq {f : BitVec 4} {n : Nat} (h : f.toNat = n) : f = BitVec.ofNat 4 n :=
  (BitVec.toNat_eq_nat.1 h).2

theorem encodeI_of_op {n : Nat} (op : (opOf w).toNat = n) :
    encodeI (BitVec.ofNat 4 n) (rdOf w) (rsOf w) (funcOf w) (immOf w) = w := by
  rw [← eq_ofNat_of_toNat_eq op, encodeI_fields]

theorem encodeJ_of_op {n : Nat} (op : (opOf w).toNat = n) :
    encodeJ (BitVec.ofNat 4 n) (rdOf w) (rsOf w) (addrOf w) = w := by
  rw [← eq_ofNat_of_toNat_eq op, encodeJ_fields]

theorem encode_arithReg :
    encode (arithReg w) = encodeR 0#4 (rdOf w) (rsOf w) (funcOf w) (rtOf w) := by
  unfold arithReg
  split
  case h_16 =>
    have last : funcOf w = 15#4 := by simp only [imp_false] at *; bv_omega
    rw [last]; rfl
  all_goals
    next func => rw [eq_ofNat_of_toNat_eq func]; rfl

theorem encode_arithImm :
    encode (arithImm w) = encodeI 1#4 (rdOf w) (rsOf w) (funcOf w) (immOf w) := by
  unfold arithImm
  split
  case h_16 =>
    have last : funcOf w = 15#4 := by simp only [imp_false] at *; bv_omega
    rw [last]; rfl
  all_goals
    next func => rw [eq_ofNat_of_toNat_eq func]; rfl

theorem encode_of_testReg (h : testReg w = .ok i) :
    encode i = encodeI 2#4 (rdOf w) (rsOf w) (funcOf w) (immOf w) := by
  unfold testReg at h
  split at h
  case h_16 => cases h
  case h_13 func | h_14 func | h_15 func =>
    obtain ⟨⟨rd, rs, imm⟩, rfl⟩ := exceptionForm_eq_ok.1 h
    rw [eq_ofNat_of_toNat_eq func, rd, rs, imm]; rfl
  all_goals
    next func =>
      obtain ⟨imm, rfl⟩ := withZeros_eq_ok.1 h
      rw [eq_ofNat_of_toNat_eq func, imm, ← encodeR_eq_encodeI]; rfl

theorem encode_of_testImm (h : testImm w = .ok i) :
    encode i = encodeI 3#4 (rdOf w) (rsOf w) (funcOf w) (immOf w) := by
  unfold testImm at h
  split at h
  case h_16 => cases h
  case h_15 func =>
    split at h
    case isTrue rs => cases h; rw [eq_ofNat_of_toNat_eq func, rs]; rfl
    case isFalse => cases h
  case h_13 func | h_14 func =>
    obtain ⟨imm, rfl⟩ := specialMove_eq_ok.1 h
    rw [eq_ofNat_of_toNat_eq func, imm]; rfl
  all_goals
    next func => cases h; rw [eq_ofNat_of_toNat_eq func]; rfl

/-! ### The two directions -/

/-- A decoder branch answers with fields of `w` and checks the rest, so encoding rebuilds every bit. -/
theorem encode_of_decodeWord (h : decodeWord w = .ok i) : encode i = w := by
  unfold decodeWord at h
  split at h
  case h_1 op =>
    obtain ⟨imm, rfl⟩ := withZeros_eq_ok.1 h
    rw [encode_arithReg, encodeR_eq_encodeI, ← imm]
    exact encodeI_of_op op
  case h_2 op => cases h; exact encode_arithImm.trans (encodeI_of_op op)
  case h_3 op => exact (encode_of_testReg h).trans (encodeI_of_op op)
  case h_4 op => exact (encode_of_testImm h).trans (encodeI_of_op op)
  case h_5 op | h_7 op =>
    obtain ⟨⟨rd, rs⟩, rfl⟩ := absoluteJump_eq_ok.1 h
    refine Eq.trans ?_ (encodeJ_of_op op)
    rw [rd, rs]; rfl
  case h_6 op | h_8 op =>
    obtain ⟨⟨rd, addr⟩, rfl⟩ := registerJump_eq_ok.1 h
    refine Eq.trans ?_ (encodeJ_of_op op)
    rw [rd, addr]; rfl
  case h_9 op | h_10 op => cases h; exact encodeJ_of_op op
  case h_11 op | h_12 op =>
    obtain ⟨rd, rfl⟩ := relativeBranch_eq_ok.1 h
    refine Eq.trans ?_ (encodeJ_of_op op)
    rw [rd]; rfl
  case h_13 op =>
    split at h
    case isTrue rs =>
      cases h
      refine Eq.trans ?_ (encodeJ_of_op op)
      rw [rs]; rfl
    case isFalse => cases h
  case h_14 => cases h

/-- One case per decoder table: each finds its row by the constants, its zero fields being zero. -/
theorem decodeWord_encode (i : Instr) : decodeWord (encode i) = .ok i := by
  cases i
  case add | addu | sub | subu | mult | multu | div | divu | rem | remu | sll | and | srl | or | sra
      | xor =>
    simp [encode, decodeWord, withZeros, arithReg]
  case addi | addui | subi | subui | multi | multui | divi | divui | remi | remui | slli | andi | srli
      | ori | srai | xori =>
    simp [encode, decodeWord, arithImm]
  case slt | sltu | sgt | sgtu | sle | sleu | sge | sgeu | seq | sequ | sne | sneu =>
    simp [encode, decodeWord, testReg, withZeros]
  case brk | syscall | rfe => simp [encode, decodeWord, testReg, exceptionForm]
  case slti | sltui | sgti | sgtui | slei | sleui | sgei | sgeui | seqi | sequi | snei | sneui | lhi =>
    simp [encode, decodeWord, testImm]
  case movgs | movsg => simp [encode, decodeWord, testImm, specialMove]
  case j | jal => simp [encode, decodeWord, absoluteJump]
  case jr | jalr => simp [encode, decodeWord, registerJump]
  case beqz | bnez => simp [encode, decodeWord, relativeBranch]
  case lw | sw | la => simp [encode, decodeWord]

theorem isWordOf_encode (i : Instr) : Machine.IsWordOf (encode i) i := fun _ =>
  ⟨fun decodes => (encode_of_decodeWord decodes).symm, fun isWord => isWord ▸ decodeWord_encode i⟩

end Sys2Proof
end

section
/-! PROOFS. Loading a constant (spec/40_arithmetic.md R151, R152). -/

namespace Sys2Proof.Machine

/-- Settles O9: each word is the encoding, and each instruction finishes with its constant in `Rd`. -/
theorem loadConstantResults : Obligations.LoadConstantResults := by
  refine ⟨fun rd imm s hs => ⟨?_, ?_⟩, fun rd addr s hs => ⟨?_, ?_⟩⟩
  · exact isWordOf_encode (.lhi rd imm)
  · exact high_eq imm ▸ completes_of_finish hs rfl
  · exact isWordOf_encode (.la rd addr)
  · exact wordOfAddr_eq addr ▸ completes_of_finish hs rfl

end Sys2Proof.Machine
end

section
/-! PROOFS. The bitwise and shift instructions (spec/41_bitwise.md R171 to R182): a result described
bit by bit is the model's bitwise operation, and one described by arithmetic is the model's shift. -/

namespace Sys2Proof.Machine

/-! ### Results described bit by bit -/

section BitByBit

variable {v a b : Word}

theorem eq_and_of_getLsbD (h : ∀ k, v.getLsbD k = (and (a.getLsbD k) (b.getLsbD k))) :
    v = a &&& b :=
  BitVec.eq_of_getLsbD_eq fun k _ => (h k).trans BitVec.getLsbD_and.symm

theorem eq_or_of_getLsbD (h : ∀ k, v.getLsbD k = (or (a.getLsbD k) (b.getLsbD k))) :
    v = a ||| b :=
  BitVec.eq_of_getLsbD_eq fun k _ => (h k).trans BitVec.getLsbD_or.symm

theorem eq_xor_of_getLsbD (h : ∀ k, v.getLsbD k = (xor (a.getLsbD k) (b.getLsbD k))) :
    v = a ^^^ b :=
  BitVec.eq_of_getLsbD_eq fun k _ => (h k).trans BitVec.getLsbD_xor.symm

end BitByBit

/-! ### The obligations -/

/-- Settles O1: the word of bits is the bitwise operation on the two registers. -/
theorem logicalRegisterResults : Obligations.LogicalRegisterResults := by
  intro rd rs rt s v hs
  refine ⟨⟨isWordOf_encode (.and rd rs rt), fun bits => ?_⟩,
    ⟨isWordOf_encode (.or rd rs rt), fun bits => ?_⟩,
    ⟨isWordOf_encode (.xor rd rs rt), fun bits => ?_⟩⟩
  · exact eq_and_of_getLsbD bits ▸ completes_of_finish hs rfl
  · exact eq_or_of_getLsbD bits ▸ completes_of_finish hs rfl
  · exact eq_xor_of_getLsbD bits ▸ completes_of_finish hs rfl

/-- Settles O2: the bits of the immediate, none from bit 16 on, are those of `zext imm`. -/
theorem logicalImmediateResults : Obligations.LogicalImmediateResults := by
  intro rd rs imm s v hs
  simp only [← zext_getLsbD imm]
  refine ⟨⟨isWordOf_encode (.andi rd rs imm), fun bits => ?_⟩,
    ⟨isWordOf_encode (.ori rd rs imm), fun bits => ?_⟩,
    ⟨isWordOf_encode (.xori rd rs imm), fun bits => ?_⟩⟩
  · exact eq_and_of_getLsbD bits ▸ completes_of_finish hs rfl
  · exact eq_or_of_getLsbD bits ▸ completes_of_finish hs rfl
  · exact eq_xor_of_getLsbD bits ▸ completes_of_finish hs rfl

/-- Settles O3: each shift by `x[rt]` modulo 32 is the product or the quotient by a power of two. -/
theorem shiftRegisterResults : Obligations.ShiftRegisterResults := by
  intro rd rs rt s hs
  refine ⟨⟨isWordOf_encode (.sll rd rs rt), ?_⟩, ⟨isWordOf_encode (.srl rd rs rt), ?_⟩,
    ⟨isWordOf_encode (.sra rd rs rt), ?_⟩⟩
  · exact shiftLeft_eq _ _ ▸ completes_of_finish hs (exec_sll rd rs rt s)
  · exact shiftRight_eq _ _ ▸ completes_of_finish hs (exec_srl rd rs rt s)
  · exact shiftRightArith_eq _ _ ▸ completes_of_finish hs (exec_sra rd rs rt s)

/-- Settles O4: the same with the immediate modulo 32, so its bits from 5 on do not count. -/
theorem shiftImmediateResults : Obligations.ShiftImmediateResults := by
  intro rd rs imm s hs
  refine ⟨⟨isWordOf_encode (.slli rd rs imm), ?_⟩, ⟨isWordOf_encode (.srli rd rs imm), ?_⟩,
    ⟨isWordOf_encode (.srai rd rs imm), ?_⟩⟩
  · exact shiftLeft_eq _ _ ▸ completes_of_finish hs (exec_slli rd rs imm s)
  · exact shiftRight_eq _ _ ▸ completes_of_finish hs (exec_srli rd rs imm s)
  · exact shiftRightArith_eq _ _ ▸ completes_of_finish hs (exec_srai rd rs imm s)

end Sys2Proof.Machine
end

section
/-! PROOFS. The test instructions (spec/42_test.md R190 to R214): each finishes with the truth of its
relation, and on an extended immediate the relation is one on the number the immediate stands for. -/

namespace Sys2Proof.Machine

/-! ### How a test ends -/

/-- R190.  The relation is a proposition here, where the model's `State.test` takes its truth value. -/
theorem completes_of_test {i : Instr} {s : State} {rd : Reg} {relation : Prop} [Decidable relation]
    (hs : HasSuccessor s) (h : exec i s = s.test rd (decide relation)) :
    Completes i s rd (if relation then 1#32 else 0#32) := by
  have value : truth (decide relation) = if relation then 1#32 else 0#32 := by
    simp only [truth, decide_eq_true_eq]
  exact value ▸ completes_of_finish hs h

/-! ### The obligations -/

/-- Settles O5: the register forms compare the two registers as signed numbers. -/
theorem signedTestRegisterResults : Obligations.SignedTestRegisterResults := by
  intro rd rs rt s hs
  exact ⟨⟨isWordOf_encode (.slt rd rs rt), completes_of_test hs rfl⟩,
    ⟨isWordOf_encode (.sgt rd rs rt), completes_of_test hs rfl⟩,
    ⟨isWordOf_encode (.sle rd rs rt), completes_of_test hs rfl⟩,
    ⟨isWordOf_encode (.sge rd rs rt), completes_of_test hs rfl⟩,
    ⟨isWordOf_encode (.seq rd rs rt), completes_of_test hs rfl⟩,
    ⟨isWordOf_encode (.sne rd rs rt), completes_of_test hs rfl⟩⟩

/-- Settles O6: the register forms with `u` compare the two registers as unsigned numbers. -/
theorem unsignedTestRegisterResults : Obligations.UnsignedTestRegisterResults := by
  intro rd rs rt s hs
  exact ⟨⟨isWordOf_encode (.sltu rd rs rt), completes_of_test hs rfl⟩,
    ⟨isWordOf_encode (.sgtu rd rs rt), completes_of_test hs rfl⟩,
    ⟨isWordOf_encode (.sleu rd rs rt), completes_of_test hs rfl⟩,
    ⟨isWordOf_encode (.sgeu rd rs rt), completes_of_test hs rfl⟩,
    ⟨isWordOf_encode (.sequ rd rs rt), completes_of_test hs rfl⟩,
    ⟨isWordOf_encode (.sneu rd rs rt), completes_of_test hs rfl⟩⟩

/-- Settles O7: the signed value of an immediate is that of `sext imm`, which the instruction
compares. -/
theorem signedTestImmediateResults : Obligations.SignedTestImmediateResults := by
  intro rd rs imm s hs
  simp only [← sext_toInt imm]
  exact ⟨⟨isWordOf_encode (.slti rd rs imm), completes_of_test hs rfl⟩,
    ⟨isWordOf_encode (.sgti rd rs imm), completes_of_test hs rfl⟩,
    ⟨isWordOf_encode (.slei rd rs imm), completes_of_test hs rfl⟩,
    ⟨isWordOf_encode (.sgei rd rs imm), completes_of_test hs rfl⟩,
    ⟨isWordOf_encode (.seqi rd rs imm), completes_of_test hs rfl⟩,
    ⟨isWordOf_encode (.snei rd rs imm), completes_of_test hs rfl⟩⟩

/-- Settles O8: the unsigned value of an immediate is that of `zext imm`, which the instruction
compares. -/
theorem unsignedTestImmediateResults : Obligations.UnsignedTestImmediateResults := by
  intro rd rs imm s hs
  simp only [← zext_toNat imm]
  exact ⟨⟨isWordOf_encode (.sltui rd rs imm), completes_of_test hs rfl⟩,
    ⟨isWordOf_encode (.sgtui rd rs imm), completes_of_test hs rfl⟩,
    ⟨isWordOf_encode (.sleui rd rs imm), completes_of_test hs rfl⟩,
    ⟨isWordOf_encode (.sgeui rd rs imm), completes_of_test hs rfl⟩,
    ⟨isWordOf_encode (.sequi rd rs imm), completes_of_test hs rfl⟩,
    ⟨isWordOf_encode (.sneui rd rs imm), completes_of_test hs rfl⟩⟩

end Sys2Proof.Machine
end

section
/-! PROOFS. The jumps (spec/43_branch.md R221, R222): each goes to its target and changes nothing else. -/

namespace Sys2Proof.Machine

/-- Addresses as numbers: the low 20 bits of a word are its remainder by 2^20. -/
theorem addrOfWord_eq_ofNat_mod (v : Word) :
    addrOfWord v = BitVec.ofNat 20 (v.toNat % 1048576) := by
  apply BitVec.eq_of_toNat_eq
  rw [addrOfWord_toNat, BitVec.toNat_ofNat]
  exact (Nat.mod_mod v.toNat 1048576).symm

/-- Settles O24: each word is the encoding, and each instruction is a jump, to the field of `j` or the
low 20 bits of the register of `jr`. -/
theorem jumpResults : Obligations.JumpResults := by
  refine ⟨fun addr s => ⟨?_, ?_⟩, fun rs s => ⟨?_, ?_⟩⟩
  · exact isWordOf_encode (.j addr)
  · exact jumps_of_setPc rfl
  · exact isWordOf_encode (.jr rs)
  · exact addrOfWord_eq_ofNat_mod (s.reg rs) ▸ jumps_of_setPc rfl

end Sys2Proof.Machine
end

section
/-! PROOFS. The encoding obligations (spec/30_encoding.md R93 to R97): the round trip and the opcode
table, each row with the instructions of its mnemonic. -/

namespace Sys2Proof

variable {w : Word}

/-! ### The round trip -/

/-- Settles O45: an encoded word has no field at fault, so no policy changes what it decodes to. -/
theorem decodeOfEncode : Obligations.DecodeOfEncode := by
  intro i
  have decodes : decodeWord (encode i) = .ok i := decodeWord_encode i
  refine ⟨decodes, decodeUnder_of_ok decodes, ?_⟩
  rw [decodeTableWord_of_word, decodes]; rfl

/-- Settles O46: a decoder branch reads or checks every bit, and `decode` looks at four bytes. -/
theorem encodeOfDecode : Obligations.EncodeOfDecode := by
  intro w i decodes
  refine ⟨encode_of_decodeWord decodes, fun rest => ?_⟩
  rw [decode_bytesOfWord, decodes]; rfl

/-- Settles O49: the sample words are closed, so the decoder is run on each. -/
theorem sampleWordsDecode : Obligations.SampleWordsDecode := by
  unfold Obligations.SampleWordsDecode
  decide

/-! ### Fields a mask keeps -/

section KeptFields

variable {mask pattern : Word} (fits : w &&& mask = pattern)
include fits

theorem opOf_of_fits (kept : opOf mask = BitVec.allOnes 4) : opOf w = opOf pattern := by
  rw [← fits, opOf_and, kept, BitVec.and_allOnes]

theorem rdOf_of_fits (kept : rdOf mask = BitVec.allOnes 4) : rdOf w = rdOf pattern := by
  rw [← fits, rdOf_and, kept, BitVec.and_allOnes]

theorem rsOf_of_fits (kept : rsOf mask = BitVec.allOnes 4) : rsOf w = rsOf pattern := by
  rw [← fits, rsOf_and, kept, BitVec.and_allOnes]

theorem funcOf_of_fits (kept : funcOf mask = BitVec.allOnes 4) : funcOf w = funcOf pattern := by
  rw [← fits, funcOf_and, kept, BitVec.and_allOnes]

theorem zerosOf_of_fits (kept : zerosOf mask = BitVec.allOnes 12) : zerosOf w = zerosOf pattern := by
  rw [← fits, zerosOf_and, kept, BitVec.and_allOnes]

theorem immOf_of_fits (kept : immOf mask = BitVec.allOnes 16) : immOf w = immOf pattern := by
  rw [← fits, immOf_and, kept, BitVec.and_allOnes]

theorem addrOf_of_fits (kept : addrOf mask = BitVec.allOnes 20) : addrOf w = addrOf pattern := by
  rw [← fits, addrOf_and, kept, BitVec.and_allOnes]

end KeptFields

/-! ### The opcode table (R93)

A word that fits a row is rebuilt from its fields by the row's format, so it is the word of the row's
instruction with those fields as operands. -/

/-- Every word that fits the row is the word of an instruction of the row's mnemonic. -/
def RowEncodes (row : OpcodeRow) : Prop :=
  ∀ w : Word, w &&& row.mask = row.pattern → ∃ i, encode i = w ∧ i.mnemonic = row.mnemonic

section RowFormats

variable {name : String} {pattern : Word}

theorem rowEncodes_register (f : Reg → Reg → Reg → Instr)
    (enc : ∀ rd rs rt, encode (f rd rs rt) = encodeR (opOf pattern) rd rs (funcOf pattern) rt := by
      intros; rfl)
    (zeros : zerosOf pattern = 0#12 := by rfl)
    (mnemonic : ∀ rd rs rt, (f rd rs rt).mnemonic = name := by intros; rfl) :
    RowEncodes ⟨name, pattern, 0xF00FFFF0#32⟩ := by
  intro w (fits : w &&& 0xF00FFFF0#32 = pattern)
  refine ⟨f (rdOf w) (rsOf w) (rtOf w), ?_, mnemonic ..⟩
  rw [enc, ← opOf_of_fits fits (by decide), ← funcOf_of_fits fits (by decide)]
  exact encodeR_fields w ((zerosOf_of_fits fits (by decide)).trans zeros)

theorem rowEncodes_immediate (f : Reg → Reg → Imm → Instr)
    (enc : ∀ rd rs imm, encode (f rd rs imm) = encodeI (opOf pattern) rd rs (funcOf pattern) imm := by
      intros; rfl)
    (mnemonic : ∀ rd rs imm, (f rd rs imm).mnemonic = name := by intros; rfl) :
    RowEncodes ⟨name, pattern, 0xF00F0000#32⟩ := by
  intro w (fits : w &&& 0xF00F0000#32 = pattern)
  refine ⟨f (rdOf w) (rsOf w) (immOf w), ?_, mnemonic ..⟩
  rw [enc, ← opOf_of_fits fits (by decide), ← funcOf_of_fits fits (by decide)]
  exact encodeI_fields w

theorem rowEncodes_loadHigh (f : Reg → Imm → Instr)
    (enc : ∀ rd imm, encode (f rd imm) =
      encodeI (opOf pattern) rd (rsOf pattern) (funcOf pattern) imm := by intros; rfl)
    (mnemonic : ∀ rd imm, (f rd imm).mnemonic = name := by intros; rfl) :
    RowEncodes ⟨name, pattern, 0xF0FF0000#32⟩ := by
  intro w (fits : w &&& 0xF0FF0000#32 = pattern)
  refine ⟨f (rdOf w) (immOf w), ?_, mnemonic ..⟩
  rw [enc, ← opOf_of_fits fits (by decide), ← rsOf_of_fits fits (by decide),
    ← funcOf_of_fits fits (by decide)]
  exact encodeI_fields w

theorem rowEncodes_specialMove (f : Reg → Reg → Instr)
    (enc : ∀ rd rs, encode (f rd rs) =
      encodeI (opOf pattern) rd rs (funcOf pattern) (immOf pattern) := by intros; rfl)
    (mnemonic : ∀ rd rs, (f rd rs).mnemonic = name := by intros; rfl) :
    RowEncodes ⟨name, pattern, 0xF00FFFFF#32⟩ := by
  intro w (fits : w &&& 0xF00FFFFF#32 = pattern)
  refine ⟨f (rdOf w) (rsOf w), ?_, mnemonic ..⟩
  rw [enc, ← opOf_of_fits fits (by decide), ← funcOf_of_fits fits (by decide),
    ← immOf_of_fits fits (by decide)]
  exact encodeI_fields w

theorem rowEncodes_jump (f : Addr → Instr)
    (enc : ∀ addr, encode (f addr) =
      encodeJ (opOf pattern) (rdOf pattern) (rsOf pattern) addr := by intros; rfl)
    (mnemonic : ∀ addr, (f addr).mnemonic = name := by intros; rfl) :
    RowEncodes ⟨name, pattern, 0xFFF00000#32⟩ := by
  intro w (fits : w &&& 0xFFF00000#32 = pattern)
  refine ⟨f (addrOf w), ?_, mnemonic ..⟩
  rw [enc, ← opOf_of_fits fits (by decide), ← rdOf_of_fits fits (by decide),
    ← rsOf_of_fits fits (by decide)]
  exact encodeJ_fields w

theorem rowEncodes_registerJump (f : Reg → Instr)
    (enc : ∀ rs, encode (f rs) =
      encodeJ (opOf pattern) (rdOf pattern) rs (addrOf pattern) := by intros; rfl)
    (mnemonic : ∀ rs, (f rs).mnemonic = name := by intros; rfl) :
    RowEncodes ⟨name, pattern, 0xFF0FFFFF#32⟩ := by
  intro w (fits : w &&& 0xFF0FFFFF#32 = pattern)
  refine ⟨f (rsOf w), ?_, mnemonic ..⟩
  rw [enc, ← opOf_of_fits fits (by decide), ← rdOf_of_fits fits (by decide),
    ← addrOf_of_fits fits (by decide)]
  exact encodeJ_fields w

theorem rowEncodes_branch (f : Reg → Addr → Instr)
    (enc : ∀ rs off, encode (f rs off) = encodeJ (opOf pattern) (rdOf pattern) rs off := by
      intros; rfl)
    (mnemonic : ∀ rs off, (f rs off).mnemonic = name := by intros; rfl) :
    RowEncodes ⟨name, pattern, 0xFF000000#32⟩ := by
  intro w (fits : w &&& 0xFF000000#32 = pattern)
  refine ⟨f (rsOf w) (addrOf w), ?_, mnemonic ..⟩
  rw [enc, ← opOf_of_fits fits (by decide), ← rdOf_of_fits fits (by decide)]
  exact encodeJ_fields w

theorem rowEncodes_memory (f : Reg → Reg → Addr → Instr)
    (enc : ∀ rd rs off, encode (f rd rs off) = encodeJ (opOf pattern) rd rs off := by intros; rfl)
    (mnemonic : ∀ rd rs off, (f rd rs off).mnemonic = name := by intros; rfl) :
    RowEncodes ⟨name, pattern, 0xF0000000#32⟩ := by
  intro w (fits : w &&& 0xF0000000#32 = pattern)
  refine ⟨f (rdOf w) (rsOf w) (addrOf w), ?_, mnemonic ..⟩
  rw [enc, ← opOf_of_fits fits (by decide)]
  exact encodeJ_fields w

theorem rowEncodes_loadAddress (f : Reg → Addr → Instr)
    (enc : ∀ rd addr, encode (f rd addr) = encodeJ (opOf pattern) rd (rsOf pattern) addr := by
      intros; rfl)
    (mnemonic : ∀ rd addr, (f rd addr).mnemonic = name := by intros; rfl) :
    RowEncodes ⟨name, pattern, 0xF0F00000#32⟩ := by
  intro w (fits : w &&& 0xF0F00000#32 = pattern)
  refine ⟨f (rdOf w) (addrOf w), ?_, mnemonic ..⟩
  rw [enc, ← opOf_of_fits fits (by decide), ← rsOf_of_fits fits (by decide)]
  exact encodeJ_fields w

theorem rowEncodes_constant (i : Instr) (enc : encode i = pattern := by rfl)
    (mnemonic : i.mnemonic = name := by rfl) : RowEncodes ⟨name, pattern, 0xFFFFFFFF#32⟩ :=
  fun _ fits => ⟨i, enc.trans (fits.symm.trans BitVec.and_allOnes), mnemonic⟩

end RowFormats

open Instr in
theorem arithmeticRows_encode : ∀ row ∈ arithmeticRows, RowEncodes row := by
  simp only [arithmeticRows, List.forall_mem_cons, List.not_mem_nil, false_imp_iff, implies_true]
  exact ⟨rowEncodes_register add, rowEncodes_immediate addi, rowEncodes_register addu,
    rowEncodes_immediate addui, rowEncodes_register sub, rowEncodes_immediate subi,
    rowEncodes_register subu, rowEncodes_immediate subui, rowEncodes_register mult,
    rowEncodes_immediate multi, rowEncodes_register multu, rowEncodes_immediate multui,
    rowEncodes_register div, rowEncodes_immediate divi, rowEncodes_register divu,
    rowEncodes_immediate divui, rowEncodes_register rem, rowEncodes_immediate remi,
    rowEncodes_register remu, rowEncodes_immediate remui, trivial⟩

open Instr in
theorem bitwiseRows_encode : ∀ row ∈ bitwiseRows, RowEncodes row := by
  simp only [bitwiseRows, List.forall_mem_cons, List.not_mem_nil, false_imp_iff, implies_true]
  exact ⟨rowEncodes_register sll, rowEncodes_immediate slli, rowEncodes_register Instr.and,
    rowEncodes_immediate andi, rowEncodes_register srl, rowEncodes_immediate srli,
    rowEncodes_register Instr.or, rowEncodes_immediate ori, rowEncodes_register sra,
    rowEncodes_immediate srai, rowEncodes_register Instr.xor, rowEncodes_immediate xori, trivial⟩

theorem loadConstantRows_encode : ∀ row ∈ loadConstantRows, RowEncodes row := by
  simp only [loadConstantRows, List.forall_mem_cons, List.not_mem_nil, false_imp_iff, implies_true]
  exact ⟨rowEncodes_loadHigh .lhi, rowEncodes_loadAddress .la, trivial⟩

open Instr in
theorem testRows_encode : ∀ row ∈ testRows, RowEncodes row := by
  simp only [testRows, List.forall_mem_cons, List.not_mem_nil, false_imp_iff, implies_true]
  exact ⟨rowEncodes_register slt, rowEncodes_immediate slti, rowEncodes_register sltu,
    rowEncodes_immediate sltui, rowEncodes_register sgt, rowEncodes_immediate sgti,
    rowEncodes_register sgtu, rowEncodes_immediate sgtui, rowEncodes_register sle,
    rowEncodes_immediate slei, rowEncodes_register sleu, rowEncodes_immediate sleui,
    rowEncodes_register sge, rowEncodes_immediate sgei, rowEncodes_register sgeu,
    rowEncodes_immediate sgeui, rowEncodes_register Instr.seq, rowEncodes_immediate seqi,
    rowEncodes_register sequ, rowEncodes_immediate sequi, rowEncodes_register sne,
    rowEncodes_immediate snei, rowEncodes_register sneu, rowEncodes_immediate sneui, trivial⟩

theorem branchRows_encode : ∀ row ∈ branchRows, RowEncodes row := by
  simp only [branchRows, List.forall_mem_cons, List.not_mem_nil, false_imp_iff, implies_true]
  exact ⟨rowEncodes_jump .j, rowEncodes_registerJump .jr, rowEncodes_jump .jal,
    rowEncodes_registerJump .jalr, rowEncodes_branch .beqz, rowEncodes_branch .bnez, trivial⟩

theorem memoryRows_encode : ∀ row ∈ memoryRows, RowEncodes row := by
  simp only [memoryRows, List.forall_mem_cons, List.not_mem_nil, false_imp_iff, implies_true]
  exact ⟨rowEncodes_memory .lw, rowEncodes_memory .sw, trivial⟩

theorem specialRows_encode : ∀ row ∈ specialRows, RowEncodes row := by
  simp only [specialRows, List.forall_mem_cons, List.not_mem_nil, false_imp_iff, implies_true]
  exact ⟨rowEncodes_specialMove .movgs, rowEncodes_specialMove .movsg, rowEncodes_constant .brk,
    rowEncodes_constant .syscall, rowEncodes_constant .rfe, trivial⟩

theorem opcodeRows_encode : ∀ row ∈ opcodeRows, RowEncodes row := by
  simp only [opcodeRows, List.forall_mem_append]
  exact ⟨⟨⟨⟨⟨⟨arithmeticRows_encode, bitwiseRows_encode⟩, loadConstantRows_encode⟩, testRows_encode⟩,
    branchRows_encode⟩, memoryRows_encode⟩, specialRows_encode⟩

open Laws in
theorem rowMatch (i : Instr) : RowMatch.Statement i := by
  cases i
  exacts [RowMatch.add .., RowMatch.addi .., RowMatch.addu .., RowMatch.addui .., RowMatch.sub ..,
    RowMatch.subi .., RowMatch.subu .., RowMatch.subui .., RowMatch.mult .., RowMatch.multi ..,
    RowMatch.multu .., RowMatch.multui .., RowMatch.div .., RowMatch.divi .., RowMatch.divu ..,
    RowMatch.divui .., RowMatch.rem .., RowMatch.remi .., RowMatch.remu .., RowMatch.remui ..,
    RowMatch.sll .., RowMatch.slli .., RowMatch.and .., RowMatch.andi .., RowMatch.srl ..,
    RowMatch.srli .., RowMatch.or .., RowMatch.ori .., RowMatch.sra .., RowMatch.srai ..,
    RowMatch.xor .., RowMatch.xori .., RowMatch.lhi .., RowMatch.la .., RowMatch.slt ..,
    RowMatch.slti .., RowMatch.sltu .., RowMatch.sltui .., RowMatch.sgt .., RowMatch.sgti ..,
    RowMatch.sgtu .., RowMatch.sgtui .., RowMatch.sle .., RowMatch.slei .., RowMatch.sleu ..,
    RowMatch.sleui .., RowMatch.sge .., RowMatch.sgei .., RowMatch.sgeu .., RowMatch.sgeui ..,
    RowMatch.seq .., RowMatch.seqi .., RowMatch.sequ .., RowMatch.sequi .., RowMatch.sne ..,
    RowMatch.snei .., RowMatch.sneu .., RowMatch.sneui .., RowMatch.j .., RowMatch.jr ..,
    RowMatch.jal .., RowMatch.jalr .., RowMatch.beqz .., RowMatch.bnez .., RowMatch.lw ..,
    RowMatch.sw .., RowMatch.movgs .., RowMatch.movsg .., RowMatch.brk, RowMatch.syscall,
    RowMatch.rfe]

/-- No mnemonic has two rows. -/
theorem opcodeRows_mnemonics_nodup : (opcodeRows.map OpcodeRow.mnemonic).Nodup := by decide

/-- Settles O47: a word that fits a row is rebuilt from its fields, and the word of an instruction fits
the one row of its mnemonic. -/
theorem opcodeTableExact : Obligations.OpcodeTableExact := by
  refine ⟨rfl, fun row hrow w => ⟨fun fits => ?_, fun ⟨i, decodes, mnemonic⟩ => ?_⟩⟩
  · obtain ⟨i, rfl, mnemonic⟩ := opcodeRows_encode row hrow w fits
    exact ⟨i, decodeWord_encode i, mnemonic⟩
  · obtain ⟨row', hrow', mnemonic', fits⟩ := rowMatch i
    have same : row' = row :=
      List.inj_on_of_nodup_map opcodeRows_mnemonics_nodup hrow' hrow (mnemonic'.trans mnemonic)
    rw [← encode_of_decodeWord decodes, ← same, fits]

end Sys2Proof
end

section
/-! PROOFS. The reserved words (spec/30_encoding.md R108, R109, R113): the error of a word is read
from its `op` and `func` and from the constant field they name, and a field that is not checked can
be taken as zero. -/

namespace Sys2Proof

variable {w : Word} {i : Instr} {e : DecodeError}

/-! ### Fields a mask clears -/

section ClearedFields

variable (w) {mask : Word}

theorem rdOf_cleared (cleared : rdOf mask = 0#4) : rdOf (w &&& mask) = 0#4 := by
  rw [rdOf_and, cleared, BitVec.and_zero]

theorem rsOf_cleared (cleared : rsOf mask = 0#4) : rsOf (w &&& mask) = 0#4 := by
  rw [rsOf_and, cleared, BitVec.and_zero]

theorem zerosOf_cleared (cleared : zerosOf mask = 0#12) : zerosOf (w &&& mask) = 0#12 := by
  rw [zerosOf_and, cleared, BitVec.and_zero]

theorem immOf_cleared (cleared : immOf mask = 0#16) : immOf (w &&& mask) = 0#16 := by
  rw [immOf_and, cleared, BitVec.and_zero]

theorem addrOf_cleared (cleared : addrOf mask = 0#20) : addrOf (w &&& mask) = 0#20 := by
  rw [addrOf_and, cleared, BitVec.and_zero]

end ClearedFields

/-! ### The reserved words (R113) -/

/-- The one error a word with these `op` and `func` can have, if any: its item of R113. -/
def errorAt (op func : BitVec 4) : Option DecodeError :=
  match op.toNat with
  | 0 => some .registerFormZeros
  | 2 =>
    if func.toNat ≤ 11 then some .registerFormZeros
    else if func.toNat ≤ 14 then some .exceptionFormZeros else some .unusedFunction
  | 3 =>
    if func.toNat ≤ 11 then none
    else if func.toNat ≤ 13 then some .specialMoveZeros
    else if func.toNat ≤ 14 then some .loadHighSource else some .unusedFunction
  | 4 | 6 => some .jumpRegisters
  | 5 | 7 => some .registerJumpFields
  | 10 | 11 => some .branchDestination
  | 12 => some .loadAddressSource
  | 1 | 8 | 9 => none
  | _ => some .reservedOpcode

/-- The constant field the error is about is not zero in the word (R108); an error about `op` and `func`
is about no field. -/
def FieldAtFault (w : Word) : DecodeError → Prop
  | .registerFormZeros => zerosOf w ≠ 0#12
  | .exceptionFormZeros => w.extractLsb' 20 8 ≠ 0#8 ∨ immOf w ≠ 0#16
  | .specialMoveZeros => immOf w ≠ 0#16
  | .loadHighSource => rsOf w ≠ 0#4
  | .jumpRegisters => w.extractLsb' 20 8 ≠ 0#8
  | .registerJumpFields => rdOf w ≠ 0#4 ∨ addrOf w ≠ 0#20
  | .branchDestination => rdOf w ≠ 0#4
  | .loadAddressSource => rsOf w ≠ 0#4
  | .reservedOpcode | .unusedFunction | .truncated => True

theorem registerFields_eq_zero : w.extractLsb' 20 8 = 0#8 ↔ rdOf w = 0#4 ∧ rsOf w = 0#4 := by
  simp only [rdOf, rsOf, ← BitVec.toNat_inj, BitVec.extractLsb'_toNat, BitVec.toNat_ofNat,
    Nat.shiftRight_eq_div_pow]
  omega

theorem error_eq_error {α : Type} {e' : DecodeError} (fault : FieldAtFault w e') :
    (.error e' : Except DecodeError α) = .error e ↔ e' = e ∧ FieldAtFault w e := by
  rw [Except.error.injEq]
  exact ⟨fun h => ⟨h, h ▸ fault⟩, And.left⟩

theorem check_eq_error {α : Type} {zero : Prop} [Decidable zero] {a : α} {e' : DecodeError}
    (fault : FieldAtFault w e' ↔ ¬ zero) :
    (if zero then .ok a else .error e' : Except DecodeError α) = .error e ↔
      e' = e ∧ FieldAtFault w e := by
  split
  case isTrue h => exact ⟨nofun, fun ⟨he, hf⟩ => absurd h (fault.1 (he ▸ hf))⟩
  case isFalse h => exact error_eq_error (fault.2 h)

theorem withZeros_eq_error :
    withZeros w i = .error e ↔ .registerFormZeros = e ∧ FieldAtFault w e := check_eq_error Iff.rfl

theorem exceptionForm_eq_error :
    exceptionForm w i = .error e ↔ .exceptionFormZeros = e ∧ FieldAtFault w e :=
  check_eq_error (by rw [← and_assoc, ← registerFields_eq_zero, not_and_or]; rfl)

theorem specialMove_eq_error :
    specialMove w i = .error e ↔ .specialMoveZeros = e ∧ FieldAtFault w e := check_eq_error Iff.rfl

theorem absoluteJump_eq_error :
    absoluteJump w i = .error e ↔ .jumpRegisters = e ∧ FieldAtFault w e :=
  check_eq_error (by rw [← registerFields_eq_zero]; rfl)

theorem registerJump_eq_error :
    registerJump w i = .error e ↔ .registerJumpFields = e ∧ FieldAtFault w e :=
  check_eq_error (by rw [not_and_or]; rfl)

theorem relativeBranch_eq_error :
    relativeBranch w i = .error e ↔ .branchDestination = e ∧ FieldAtFault w e :=
  check_eq_error Iff.rfl

theorem unusedFunction_eq_error : (.error .unusedFunction : Except DecodeError Instr) = .error e ↔
    .unusedFunction = e ∧ FieldAtFault w e := error_eq_error trivial

theorem reservedOpcode_eq_error : (.error .reservedOpcode : Except DecodeError Instr) = .error e ↔
    .reservedOpcode = e ∧ FieldAtFault w e := error_eq_error trivial

theorem testReg_eq_error :
    testReg w = .error e ↔ errorAt 2#4 (funcOf w) = some e ∧ FieldAtFault w e := by
  unfold testReg
  split
  case h_13 f | h_14 f | h_15 f => simp [exceptionForm_eq_error, errorAt, f]
  case h_16 =>
    have f : funcOf w = 15#4 := by simp only [imp_false] at *; bv_omega
    simp [unusedFunction_eq_error (w := w), errorAt, f]
  all_goals
    next f => simp [withZeros_eq_error, errorAt, f]

theorem testImm_eq_error :
    testImm w = .error e ↔ errorAt 3#4 (funcOf w) = some e ∧ FieldAtFault w e := by
  unfold testImm
  split
  case h_13 f | h_14 f => simp [specialMove_eq_error, errorAt, f]
  case h_15 f => simp [check_eq_error (w := w) (e' := .loadHighSource) Iff.rfl, errorAt, f]
  case h_16 =>
    have f : funcOf w = 15#4 := by simp only [imp_false] at *; bv_omega
    simp [unusedFunction_eq_error (w := w), errorAt, f]
  all_goals
    next f => simp [errorAt, f]

theorem errorAt_reservedOpcode {op func : BitVec 4} (h : 13 ≤ op.toNat) :
    errorAt op func = some .reservedOpcode := by
  unfold errorAt
  split
  case h_14 => rfl
  all_goals omega

/-- R113: a word is reserved where its `op` and `func` are those of no row, or where a constant field of
the row they are those of is not zero. -/
theorem decodeWord_eq_error :
    decodeWord w = .error e ↔ errorAt (opOf w) (funcOf w) = some e ∧ FieldAtFault w e := by
  unfold decodeWord
  split
  case h_1 op => simp [withZeros_eq_error, errorAt, op]
  case h_3 op => rw [testReg_eq_error, eq_ofNat_of_toNat_eq op]
  case h_4 op => rw [testImm_eq_error, eq_ofNat_of_toNat_eq op]
  case h_2 op | h_9 op | h_10 op => simp [errorAt, op]
  case h_5 op | h_7 op => simp [absoluteJump_eq_error, errorAt, op]
  case h_6 op | h_8 op => simp [registerJump_eq_error, errorAt, op]
  case h_11 op | h_12 op => simp [relativeBranch_eq_error, errorAt, op]
  case h_13 op => simp [check_eq_error (w := w) (e' := .loadAddressSource) Iff.rfl, errorAt, op]
  case h_14 =>
    have op : 13 ≤ (opOf w).toNat := by simp only [imp_false] at *; omega
    rw [errorAt_reservedOpcode op, Option.some.injEq]
    exact reservedOpcode_eq_error

theorem exists_error_iff {α : Type} {r : Except DecodeError α} :
    (∃ e, r = .error e) ↔ ¬ ∃ i, r = .ok i := by cases r <;> simp

/-! ### Fields that are not checked (R108, R109) -/

theorem errorAt_registerJumpFields {op func : BitVec 4}
    (h : errorAt op func = some .registerJumpFields) (func' : BitVec 4) :
    errorAt op func' = some .registerJumpFields := by
  unfold errorAt at h
  split at h
  case h_6 op | h_7 op => simp [errorAt, op]
  case h_2 | h_3 => split_ifs at h <;> cases h
  all_goals simp at h

/-- With the field zero that an error is about, `op` and `func` still say which error that is: `func` is
in no such field but in that of `jr` and `jalr`, which `op` alone names. -/
theorem errorAt_without_field (h : errorAt (opOf w) (funcOf w) = some e) :
    errorAt (opOf (w &&& ~~~e.constantField)) (funcOf (w &&& ~~~e.constantField)) = some e := by
  have op : opOf (w &&& ~~~e.constantField) = opOf w :=
    (opOf_of_fits rfl (by cases e <;> rfl)).symm
  rw [op]
  by_cases he : e = .registerJumpFields
  · subst he
    exact errorAt_registerJumpFields h _
  · have kept : funcOf (~~~e.constantField) = BitVec.allOnes 4 := by
      cases e with
      | registerJumpFields => exact absurd rfl he
      | _ => rfl
    rw [← funcOf_of_fits rfl kept, h]

/-- What some policy does not check, `MBZ_POLICY = ignore` with `LHI_RS_IGNORED` does not check. -/
theorem unchecked_ignore_of_unchecked {mbz : MbzPolicy} {lhiRsIgnored : Bool}
    (h : e.unchecked mbz lhiRsIgnored = true) : e.unchecked .ignore true = true := by
  cases e with
  | reservedOpcode | unusedFunction | truncated => exact h
  | _ => rfl

theorem not_fieldAtFault_without_field (h : e.unchecked .ignore true = true) :
    ¬ FieldAtFault (w &&& ~~~e.constantField) e := by
  cases e with
  | reservedOpcode | unusedFunction | truncated => cases h
  | registerFormZeros => exact not_not.2 (zerosOf_cleared w (by decide))
  | exceptionFormZeros =>
    exact not_or.2 ⟨not_not.2 (registerFields_eq_zero.2
      ⟨rdOf_cleared w (by decide), rsOf_cleared w (by decide)⟩),
      not_not.2 (immOf_cleared w (by decide))⟩
  | specialMoveZeros => exact not_not.2 (immOf_cleared w (by decide))
  | loadHighSource | loadAddressSource => exact not_not.2 (rsOf_cleared w (by decide))
  | jumpRegisters =>
    exact not_not.2 (registerFields_eq_zero.2
      ⟨rdOf_cleared w (by decide), rsOf_cleared w (by decide)⟩)
  | registerJumpFields =>
    exact not_or.2 ⟨not_not.2 (rdOf_cleared w (by decide)), not_not.2 (addrOf_cleared w (by decide))⟩
  | branchDestination => exact not_not.2 (rdOf_cleared w (by decide))

/-- A reserved word whose one fault is a constant field is an instruction with that field zero. -/
theorem decodeWord_without_field (h : decodeWord w = .error e) (hu : e.unchecked .ignore true = true) :
    ∃ i, decodeWord (w &&& ~~~e.constantField) = .ok i := by
  refine not_not.1 fun hn => ?_
  obtain ⟨e', he'⟩ := exists_error_iff.2 hn
  obtain ⟨item, fault⟩ := decodeWord_eq_error.1 he'
  obtain rfl : e = e' :=
    Option.some.inj ((errorAt_without_field (decodeWord_eq_error.1 h).1).symm.trans item)
  exact not_fieldAtFault_without_field hu fault

theorem unchecked_strict : e.unchecked .strict true = false ↔ e ≠ .loadHighSource := by
  cases e <;> simp [DecodeError.unchecked]

/-! ### The ten items, each with the `op` and `func` it is about -/

theorem errorAt_eq_reservedOpcode : ∀ op func : BitVec 4,
    errorAt op func = some .reservedOpcode ↔ 13 ≤ op.toNat := by decide

theorem errorAt_eq_unusedFunction : ∀ op func : BitVec 4,
    errorAt op func = some .unusedFunction ↔ (op = 2#4 ∨ op = 3#4) ∧ func = 15#4 := by decide

theorem errorAt_eq_registerFormZeros : ∀ op func : BitVec 4,
    errorAt op func = some .registerFormZeros ↔ op = 0#4 ∨ (op = 2#4 ∧ func.toNat ≤ 11) := by
  decide

theorem errorAt_eq_exceptionFormZeros : ∀ op func : BitVec 4,
    errorAt op func = some .exceptionFormZeros ↔
      op = 2#4 ∧ 12 ≤ func.toNat ∧ func.toNat ≤ 14 := by decide

theorem errorAt_eq_specialMoveZeros : ∀ op func : BitVec 4,
    errorAt op func = some .specialMoveZeros ↔ op = 3#4 ∧ (func = 12#4 ∨ func = 13#4) := by
  decide

theorem errorAt_eq_loadHighSource : ∀ op func : BitVec 4,
    errorAt op func = some .loadHighSource ↔ op = 3#4 ∧ func = 14#4 := by decide

theorem errorAt_eq_jumpRegisters : ∀ op func : BitVec 4,
    errorAt op func = some .jumpRegisters ↔ op = 4#4 ∨ op = 6#4 := by decide

theorem errorAt_eq_registerJumpFields : ∀ op func : BitVec 4,
    errorAt op func = some .registerJumpFields ↔ op = 5#4 ∨ op = 7#4 := by decide

theorem errorAt_eq_branchDestination : ∀ op func : BitVec 4,
    errorAt op func = some .branchDestination ↔ op = 10#4 ∨ op = 11#4 := by decide

theorem errorAt_eq_loadAddressSource : ∀ op func : BitVec 4,
    errorAt op func = some .loadAddressSource ↔ op = 12#4 := by decide

theorem errorAt_ne_truncated : ∀ op func : BitVec 4, errorAt op func ≠ some .truncated := by decide

theorem exists_decodeError {P : DecodeError → Prop} : (∃ e, P e) ↔
    P .reservedOpcode ∨ P .unusedFunction ∨ P .registerFormZeros ∨ P .exceptionFormZeros ∨
      P .specialMoveZeros ∨ P .loadHighSource ∨ P .jumpRegisters ∨ P .registerJumpFields ∨
      P .branchDestination ∨ P .loadAddressSource ∨ P .truncated := by
  refine ⟨fun ⟨e, h⟩ => by cases e <;> simp [h], fun h => ?_⟩
  rcases h with h | h | h | h | h | h | h | h | h | h | h
  all_goals exact ⟨_, h⟩

theorem exists_decodeUnder_error {mbz : MbzPolicy} {lhiRsIgnored : Bool} :
    (∃ e, decodeUnder mbz lhiRsIgnored w = .error e) ↔
      ∃ e, e.unchecked mbz lhiRsIgnored = false ∧ decodeWord w = .error e := by
  cases h : decodeWord w with
  | ok i => simp [decodeUnder_of_ok h]
  | error e =>
    cases hu : e.unchecked mbz lhiRsIgnored with
    | false => simp [decodeUnder_of_checked h hu, hu]
    | true =>
      obtain ⟨i, hi⟩ := decodeWord_without_field h (unchecked_ignore_of_unchecked hu)
      simp [decodeUnder_of_unchecked h hu, hi, hu]

theorem decodeUnder_loadHigh (op : opOf w = 3#4) (func : funcOf w = 14#4) :
    decodeUnder .strict true w = .ok (.lhi (rdOf w) (immOf w)) := by
  by_cases rs : rsOf w = 0#4
  · exact decodeUnder_of_ok (by simp [decodeWord, testImm, op, func, rs]) _ _
  · have h : decodeWord w = .error .loadHighSource := by
      simp [decodeWord, testImm, op, func, rs]
    have zeroed : w &&& ~~~DecodeError.loadHighSource.constantField =
        encode (.lhi (rdOf w) (immOf w)) := by
      rw [← encodeI_fields (w &&& _), ← opOf_of_fits rfl (by decide), ← rdOf_of_fits rfl (by decide),
        rsOf_cleared w (by decide), ← funcOf_of_fits rfl (by decide), ← immOf_of_fits rfl (by decide),
        op, func]
      rfl
    rw [decodeUnder_of_unchecked h rfl, zeroed, decodeWord_encode]

/-- Settles O48: R113's items are the errors of `decodeWord`, and a policy leaves those whose field it
checks. -/
theorem reservedWordsExactly : Obligations.ReservedWordsExactly := by
  refine ⟨fun w => ?_, fun w lhiRsIgnored => ?_, fun w => ⟨?_, decodeUnder_loadHigh⟩⟩
  · simp only [decodeWord_eq_error, exists_decodeError, errorAt_eq_reservedOpcode,
      errorAt_eq_unusedFunction, errorAt_eq_registerFormZeros, errorAt_eq_exceptionFormZeros,
      errorAt_eq_specialMoveZeros, errorAt_eq_loadHighSource, errorAt_eq_jumpRegisters,
      errorAt_eq_registerJumpFields, errorAt_eq_branchDestination, errorAt_eq_loadAddressSource,
      errorAt_ne_truncated, FieldAtFault, and_true, and_assoc, or_false]
    rfl
  · rw [exists_decodeUnder_error, ← errorAt_eq_reservedOpcode _ (funcOf w),
      ← errorAt_eq_unusedFunction]
    simp [decodeWord_eq_error, exists_decodeError, DecodeError.unchecked, FieldAtFault,
      errorAt_ne_truncated]
  · rw [exists_decodeUnder_error]
    simp only [unchecked_strict]

end Sys2Proof
end

section
/-! PROOFS. What every step keeps (spec/10_state.md, spec/20_memory.md, spec/60_exceptions.md): each
statement is read from the ways an instruction can end (`Effect`) and the ways a step can (`step_cases`). -/

namespace Sys2Proof.Machine

variable {s t : State} {i : Instr}

/-! ### Frames of the shared operations -/

theorem sameHandlerRegs_withLines (s : State) : SameHandlerRegs s (withLines s) :=
  ⟨rfl, rfl, rfl, rfl, rfl, rfl, rfl⟩

theorem sameHandlerRegs_enter (s : State) (c : Word) (a : Addr) : SameHandlerRegs s (s.enter c a) := by
  constructor <;> simp

theorem sameHandlerRegs_spoil (s : State) (rd : Reg) : SameHandlerRegs s (s.spoil rd) := by
  constructor <;> simp

theorem SameHandlerRegs.trans {u : State} (h : SameHandlerRegs s t) (k : SameHandlerRegs t u) :
    SameHandlerRegs s u :=
  ⟨k.imask.trans h.imask, k.evec.trans h.evec, k.evecWritten.trans h.evecWritten,
    k.esp.trans h.esp, k.ers.trans h.ers, k.ptable.trans h.ptable, k.rbase.trans h.rbase⟩

theorem sameRegsBut_setReg (s : State) (rd : Reg) (v : Word) : SameRegsBut rd s (s.setReg rd v) :=
  (s.writes_setReg rd v).2

theorem sameRegsBut_spoil (s : State) (rd : Reg) : SameRegsBut rd s (s.spoil rd) := by
  unfold State.spoil
  split
  · exact fun _ _ => rfl
  · exact sameRegsBut_setReg s rd s.draw

/-- Two words at `pc` are one. -/
theorem WordAtPc.unique {v w : Word} (hv : WordAtPc v s) (hw : WordAtPc w s) : v = w :=
  Option.some.inj (hv.2.1.symm.trans hw.2.1)

theorem decode_withLines (s : State) (w : Word) : (withLines s).decode w = s.decode w := rfl

theorem takesInterrupt_eq_true : (withLines s).takesInterrupt = true ↔ ¬ NoInterrupt s := by
  rw [← takesInterrupt_eq_false, Bool.not_eq_false]

/-! ### The invariant -/

theorem Inv.withLines (h : Inv s) : Inv (withLines s) := h.congr rfl rfl rfl

theorem Inv.enter (h : Inv s) (c : Word) (a : Addr) : Inv (s.enter c a) :=
  h.congr (by simp) (by simp) (by simp)

theorem Inv.spoil (h : Inv s) (rd : Reg) : Inv (s.spoil rd) := by
  refine h.congr (by simp) (by simp) ?_
  unfold State.spoil
  split <;> simp

/-- Only a store touches memory, and it stores where the map has ram; no instruction touches the entry
of `$0`. -/
theorem Effect.keeps_inv (h : Effect s i t) (hi : Inv s) : Inv t := by
  cases h with
  | retire | link | deviceLoad => exact hi.congr rfl rfl (writeFile_get_zero ..)
  | raise => exact hi.enter _ _
  | arithRaise => exact (hi.spoil _).enter _ _
  | jump | deviceStore | returnFrom => exact hi.congr rfl rfl rfl
  | store rd rs off ram => exact (hi.writeWord (s.reg rd) (.inl ram)).congr rfl rfl rfl
  | setSpecial => exact hi.congr (by simp) (by simp) (by simp)
  | readSpecial => exact hi.congr (by simp) (by simp) (by simp)

/-- Settles O50, by the three ways a step ends. -/
theorem stepKeepsInvariant : Obligations.StepKeepsInvariant := by
  intro s t hi h
  rcases step_cases h with ⟨-, -, rfl⟩ | ⟨-, -, w, -, ⟨e, -, -, -, rfl⟩ | ⟨i, -, hx⟩⟩
  · exact hi.withLines.enter _ _
  · exact hi.withLines.enter _ _
  · exact (exec_effect hx).keeps_inv hi.withLines

/-! ### General registers -/

theorem Effect.sameRegsBut (h : Effect s i t) : ∃ rd, SameRegsBut rd s t := by
  cases h with
  | retire _ rd v => exact ⟨rd, sameRegsBut_setReg s rd v⟩
  | raise => exact ⟨0#4, fun r _ => s.reg_enter _ _ r⟩
  | arithRaise _ rd =>
    exact ⟨rd, fun r hr => (State.reg_enter _ _ _ r).trans (sameRegsBut_spoil s rd r hr)⟩
  | jump | returnFrom | store | deviceStore => exact ⟨0#4, fun _ _ => rfl⟩
  | link => exact ⟨15#4, sameRegsBut_setReg s 15#4 _⟩
  | deviceLoad rd => exact ⟨rd, fun r hr => sameRegsBut_setReg _ rd _ r hr⟩
  | setSpecial n rs k => exact ⟨0#4, fun r _ => s.reg_setSpecial k _ r⟩
  | readSpecial rd n k =>
    exact ⟨rd, fun r hr => (sameRegsBut_setReg _ rd _ r hr).trans (s.reg_afterRead k r)⟩

/-- An instruction that changes `$estat` writes no general register, but for the draw `EXC_RD` leaves. -/
theorem Effect.sameRegs_of_estat_ne (h : Effect s i t) (hu : s.platform.excRd = .unchanged)
    (hne : t.estat ≠ s.estat) : SameRegs s t := by
  cases h with
  | retire | jump | link | deviceLoad | store | deviceStore | returnFrom => exact absurd rfl hne
  | raise => exact s.reg_enter _ _
  | arithRaise => rw [State.spoil_eq hu]; exact s.reg_enter _ _
  | setSpecial n rs k => exact s.reg_setSpecial k _
  | readSpecial rd n k => exact absurd (by simp) hne

theorem sameRegs_of_trap {c : Cause} (h : s.trap c = .next t) : SameRegs s t := by
  obtain ⟨-, rfl⟩ := State.trap_eq_next h
  exact s.reg_enter _ _

theorem sameRegs_of_execRfe (h : execRfe s = .next t) : SameRegs s t := by
  rcases privileged_eq_next h with ⟨-, h⟩ | ⟨-, h⟩
  · exact sameRegs_of_trap h
  · cases h; exact s.reg_returnFrom

/-- Settles O54.  The entry of an exception and the return from it go through the register file
untouched; any other instruction has one destination. -/
theorem oneGeneralRegisterAtMost : Obligations.OneGeneralRegisterAtMost := by
  refine ⟨fun s t h => ?_, fun s c a => ⟨s.reg_enter c a, s.reg_returnFrom⟩⟩
  rcases step_cases h with ⟨-, -, rfl⟩ | ⟨hn, -, w, hw, ⟨e, -, -, -, rfl⟩ | ⟨i, hi, hx⟩⟩
  · exact ⟨⟨0#4, fun r _ => (withLines s).reg_enter _ _ r⟩, rfl, fun _ => (withLines s).reg_enter _ _⟩
  · exact ⟨⟨0#4, fun r _ => (withLines s).reg_enter _ _ r⟩, rfl, fun _ => (withLines s).reg_enter _ _⟩
  · refine ⟨(exec_effect hx).sameRegsBut, rfl, ?_⟩
    rintro (hint | ⟨w', hw', hi'⟩ | ⟨hu, hne⟩)
    · exact absurd hn hint
    · rw [hw'.unique hw, hi] at hi'
      rcases hi' with hi' | hi' | hi' <;> cases hi'
      · exact sameRegs_of_trap (s := withLines s) hx
      · exact sameRegs_of_trap (s := withLines s) hx
      · exact sameRegs_of_execRfe (s := withLines s) hx
    · exact (exec_effect hx).sameRegs_of_estat_ne hu hne

/-! ### Memory -/

theorem Effect.memory (h : Effect s i t) : SameMemory s t ∨
    ∃ rd rs off, i = .sw rd rs off ∧
      s.platform.memMap.kindAt (accessAddress (s.reg rs) off) = .ram ∧
      SameMemoryBut (accessAddress (s.reg rs) off) s t := by
  cases h with
  | retire | jump | link | deviceLoad | deviceStore | returnFrom => exact .inl fun _ => rfl
  | raise | arithRaise | setSpecial | readSpecial => exact .inl fun c => by simp
  | store rd rs off ram =>
    exact .inr ⟨rd, rs, off, rfl, ram, fun _ hc => Memory.read?_writeWord_outside _ _ hc⟩

/-- Settles O55: of all the ways a step ends, only the store of `sw` touches memory. -/
theorem memoryChangesOnlyBySw : Obligations.MemoryChangesOnlyBySw := by
  intro s t h
  rcases step_cases h with ⟨-, -, rfl⟩ | ⟨-, -, w, hw, ⟨e, -, -, -, rfl⟩ | ⟨i, hi, hx⟩⟩
  · exact .inl fun c => by rw [State.interrupt_eq, State.enter_mem]; rfl
  · exact .inl fun c => by rw [State.raise_eq, State.enter_mem]; rfl
  · rcases (exec_effect hx).memory with same | ⟨rd, rs, off, rfl, ram, but⟩
    · exact .inl same
    · exact .inr ⟨w, rd, rs, off, hw, hi, ram, but⟩

/-! ### The environment -/

theorem Effect.sameOutside (h : Effect s i t) : SameOutside s t := by
  cases h with
  | raise | arithRaise | setSpecial | readSpecial => constructor <;> simp
  | _ => exact ⟨rfl, rfl, rfl⟩

theorem draws_spoil (s : State) (rd : Reg) :
    s.draws ≤ (s.spoil rd).draws ∧ (s.spoil rd).draws ≤ s.draws + 1 := by
  unfold State.spoil
  split <;> simp

theorem draws_afterRead (s : State) (k : Special) :
    s.draws ≤ (s.afterRead k).draws ∧ (s.afterRead k).draws ≤ s.draws + 1 := by
  cases k <;> simp [State.afterRead]

theorem Effect.draws (h : Effect s i t) : s.draws ≤ t.draws ∧ t.draws ≤ s.draws + 1 := by
  cases h with
  | arithRaise _ rd => simpa using draws_spoil s rd
  | readSpecial rd n k => simpa using draws_afterRead s k
  | _ => simp

theorem Effect.deviceLog (h : Effect s i t) :
    t.deviceLog = s.deviceLog ∨ ∃ e, t.deviceLog = e :: s.deviceLog := by
  cases h with
  | deviceLoad | deviceStore => exact .inr ⟨_, rfl⟩
  | _ => left; simp

/-- Settles O60: the step puts this step's lines on the state and nothing after that touches them. -/
theorem linesAreTheEnvironments : Obligations.LinesAreTheEnvironments := by
  intro s t h
  rcases step_cases h with ⟨-, -, rfl⟩ | ⟨-, -, w, hw, ⟨e, -, -, -, rfl⟩ | ⟨i, hi, hx⟩⟩
  · exact ⟨by constructor <;> simp, by simp [withLines], by simp [withLines], .inl (by simp [withLines])⟩
  · exact ⟨by constructor <;> simp, by simp [withLines], by simp [withLines], .inl (by simp [withLines])⟩
  · have effect := exec_effect hx
    exact ⟨effect.sameOutside, effect.draws.1, effect.draws.2, effect.deviceLog⟩

/-! ### Special registers and mode bits -/

/-- The special registers and mode bits after an instruction: as before; those of an entry, from `s` or
with a draw in `Rd`; one of them written by `movgs`; or those of `rfe`. -/
theorem Effect.specials (h : Effect s i t) :
    SameSpecials s t ∨
    (HasTarget s ∧ ∃ c, (c = .generalProtection → s.privilegeFault = true) ∧
      (t = s.raise c ∨ ∃ rd, t = (s.spoil rd).raise c)) ∨
    (∃ n rs k, i = .movgs n rs ∧ s.privilegeFault = false ∧ s.platform.spr.named? n = some k ∧
      s.platform.spr.writable k = true ∧ t = (s.setSpecial k (s.reg rs)).advance) ∨
    (i = .rfe ∧ s.privilegeFault = false ∧ t = s.returnFrom) := by
  cases h with
  | retire | jump | link | deviceLoad | store | deviceStore =>
    exact .inl ⟨⟨rfl, rfl, rfl, rfl, rfl, rfl, rfl⟩, rfl, rfl, rfl, rfl, rfl, rfl⟩
  | raise _ c why target => exact .inr (.inl ⟨target, c, why, .inl rfl⟩)
  | arithRaise _ rd c why target =>
    exact .inr (.inl ⟨target, c, by rcases why with rfl | rfl <;> nofun, .inr ⟨rd, rfl⟩⟩)
  | setSpecial n rs k allowed named writable =>
    exact .inr (.inr (.inl ⟨n, rs, k, rfl, allowed, named, writable, rfl⟩))
  | readSpecial rd n k =>
    exact .inl ⟨⟨by simp, by simp, by simp, by simp, by simp, by simp, by simp⟩, by simp, by simp,
      by simp, by simp, by simp, by simp⟩
  | returnFrom allowed => exact .inr (.inr (.inr ⟨rfl, allowed, rfl⟩))

/-- Settles O56: neither an entry nor `rfe` writes these registers, so `movgs` alone is left. -/
theorem handlerRegistersChangeOnlyByMovgs : Obligations.HandlerRegistersChangeOnlyByMovgs := by
  intro s t h
  have lines := sameHandlerRegs_withLines s
  rcases step_cases h with ⟨-, -, rfl⟩ | ⟨hn, -, w, hw, ⟨e, -, -, -, rfl⟩ | ⟨i, hi, hx⟩⟩
  · exact .inl (lines.trans (sameHandlerRegs_enter _ _ _))
  · exact .inl (lines.trans (sameHandlerRegs_enter _ _ _))
  · rcases (exec_effect hx).specials with same | ⟨-, c, -, rfl | ⟨rd, rfl⟩⟩ | ⟨n, rs, k, rfl, -⟩ |
        ⟨rfl, -, rfl⟩
    · exact .inl (lines.trans same.toSameHandlerRegs)
    · exact .inl (lines.trans (sameHandlerRegs_enter _ _ _))
    · exact .inl (lines.trans ((sameHandlerRegs_spoil _ rd).trans (sameHandlerRegs_enter _ _ _)))
    · exact .inr ⟨w, n, rs, hn, hw, hi⟩
    · exact .inl ⟨rfl, rfl, rfl, rfl, rfl, rfl, rfl⟩

/-! ### Entries, `$estat` and `KU` under the decided values -/

theorem legalCause_causeWord (c : Cause) : LegalCause (causeWord CauseEncoding.words c) := by
  cases c with
  | overflow | divideByZero => exact .inl rfl
  | breakpoint => exact .inr (.inl rfl)
  | systemCall => exact .inr (.inr (.inl rfl))
  | generalProtection => exact .inr (.inr (.inr (.inl rfl)))

theorem causeWord_eq_generalProtection {c : Cause}
    (h : causeWord CauseEncoding.words c = 0x1000#32) : c = .generalProtection := by
  cases c with
  | generalProtection => rfl
  | _ => exact absurd h (by decide)

theorem interruptWord_words (p : BitVec 8) :
    interruptWord CauseEncoding.words p = BitVec.ofNat 32 (16 * p.toNat) := by
  have := p.isLt
  apply BitVec.eq_of_toNat_eq
  simp only [interruptWord, CauseEncoding.words, byteAt, BitVec.toNat_shiftLeft, BitVec.toNat_setWidth,
    BitVec.toNat_ofNat, Nat.shiftLeft_eq]
  omega

theorem DecidedEntry.withLines (h : DecidedEntry s) : DecidedEntry (withLines s) :=
  ⟨h.entry, h.handler, h.causes, h.kernel⟩

theorem DecidedEntry.spoil (h : DecidedEntry s) (rd : Reg) : DecidedEntry (s.spoil rd) :=
  ⟨by simp [h.entry], by simp [h.handler], by simp [h.causes], by simp [h.kernel]⟩

/-- The entry of an arithmetic exception writes what any entry writes: a draw in `Rd` is a general
register. -/
theorem entryWrites_spoil (h : DecidedEntry s) (rd : Reg) (c : Word) (a : Addr) :
    EntryWrites c a s ((s.spoil rd).enter c a) := by
  obtain ⟨oie, oku, ie, ku, ear, estat, pc, others, memory, outside⟩ :=
    (State.entered_enter (h.spoil rd) c a).toEntryWrites
  refine ⟨by simpa using oie, by simpa using oku, ie, ku, ear, estat, by simpa using pc,
    (sameHandlerRegs_spoil s rd).trans others, fun k => by simp, ?_⟩
  constructor <;> simp

/-- The step from `s` to `t` is an exception entry with a legal cause, which has a target. -/
def StepEnters (s t : State) : Prop :=
  ∃ cause ret, LegalCause cause ∧ HasTarget s ∧
    (cause = 0x1000#32 → s.platform.reserved = .gpf ∨ s.platform.userMode = .gpf) ∧
    EntryWrites cause ret (withLines s) t ∧
    (s.platform.excRd = .unchanged → Entered cause ret (withLines s) t)

theorem stepEnters_interrupt (hd : DecidedEntry s) (hi : (withLines s).takesInterrupt = true)
    (target : HasTarget s) : StepEnters s (withLines s).interrupt := by
  have pending : (withLines s).pending ≠ 0#8 := by
    simp only [State.takesInterrupt, Bool.and_eq_true, bne_iff_ne] at hi
    exact hi.2
  have entered := State.entered_enter hd.withLines
    (interruptWord s.platform.causes (withLines s).pending) s.pc
  refine ⟨_, _, ?_, target, fun h => ?_, entered.toEntryWrites, fun _ => entered⟩
  · rw [hd.causes, interruptWord_words]
    exact .inr (.inr (.inr (.inr ⟨_, pending, rfl⟩)))
  · have bound := (withLines s).pending.isLt
    rw [hd.causes, interruptWord_words, ← BitVec.toNat_inj, BitVec.toNat_ofNat] at h
    simp at h
    omega

theorem stepEnters_raise (hd : DecidedEntry s) (target : HasTarget s) {c : Cause}
    (why : c = .generalProtection → s.platform.reserved = .gpf ∨ s.platform.userMode = .gpf) :
    StepEnters s ((withLines s).raise c) := by
  have entered := State.entered_enter hd.withLines (causeWord s.platform.causes c)
    (withLines s).returnAddress
  refine ⟨_, _, ?_, target, fun h => why ?_, entered.toEntryWrites, fun _ => entered⟩
  · exact hd.causes ▸ legalCause_causeWord c
  · exact causeWord_eq_generalProtection (hd.causes ▸ h)

/-- Neither overflow nor a zero divisor has the cause of general protection, so both policies may stand. -/
theorem stepEnters_spoil_raise (hd : DecidedEntry s) (target : HasTarget s) {c : Cause} (rd : Reg)
    (why : c = .generalProtection → s.platform.reserved = .gpf ∨ s.platform.userMode = .gpf) :
    StepEnters s (((withLines s).spoil rd).raise c) := by
  have causes : ((withLines s).spoil rd).platform.causes = CauseEncoding.words := by
    rw [State.spoil_platform]; exact hd.causes
  refine ⟨_, _, ?_, target, fun h => why ?_,
    entryWrites_spoil hd.withLines rd (causeWord ((withLines s).spoil rd).platform.causes c)
      ((withLines s).spoil rd).returnAddress, fun hu => ?_⟩
  · exact causes ▸ legalCause_causeWord c
  · exact causeWord_eq_generalProtection (causes ▸ h)
  · rw [State.spoil_eq (s := withLines s) hu]
    exact State.entered_enter hd.withLines _ _

theorem gpf_of_privilegeFault (h : s.privilegeFault = true) : s.platform.userMode = .gpf := by
  simp only [State.privilegeFault, Bool.and_eq_true, beq_iff_eq] at h
  exact h.2

/-- What a step can do to the special registers and the mode bits: nothing, an entry, the write of
`movgs`, or the return of `rfe`. -/
theorem step_specials (hd : DecidedEntry s) (h : step s = .next t) :
    SameSpecials (withLines s) t ∨ StepEnters s t ∨
    ∃ w, WordAtPc w s ∧ MayStep s ∧ s.privilegeFault = false ∧
      ((∃ n rs k, s.decode w = .ok (.movgs n rs) ∧ s.platform.spr.named? n = some k ∧
          s.platform.spr.writable k = true ∧ t = ((withLines s).setSpecial k (s.reg rs)).advance) ∨
        (s.decode w = .ok .rfe ∧ t = (withLines s).returnFrom)) := by
  rcases step_cases h with ⟨hi, target, rfl⟩ | ⟨-, hm, w, hw, ⟨e, -, hr, target, rfl⟩ | ⟨i, hi, hx⟩⟩
  · exact .inr (.inl (stepEnters_interrupt hd hi target))
  · exact .inr (.inl (stepEnters_raise hd target fun _ => .inl hr))
  · rcases (exec_effect hx).specials with same | ⟨target, c, why, rfl | ⟨rd, rfl⟩⟩ |
      ⟨n, rs, k, rfl, allowed, named, writable, rfl⟩ | ⟨rfl, allowed, rfl⟩
    · exact .inl same
    · exact .inr (.inl (stepEnters_raise hd target fun hc => .inr (gpf_of_privilegeFault (why hc))))
    · exact .inr (.inl (stepEnters_spoil_raise hd target rd fun hc =>
        .inr (gpf_of_privilegeFault (why hc))))
    · exact .inr (.inr ⟨w, hw, hm, allowed, .inl ⟨n, rs, k, hi, named, writable, rfl⟩⟩)
    · exact .inr (.inr ⟨w, hw, hm, allowed, .inr ⟨hi, rfl⟩⟩)

/-- Under the default profile `movgs` does not write `$estat`. -/
theorem estat_setSpecial {k : Special} (h : SprLayout.profile.writable k = true) (v : Word) :
    (s.setSpecial k v).estat = s.estat := by
  cases k with
  | estat => exact absurd h (by decide)
  | _ => rfl

/-- Settles O57: `movgs` and `rfe` leave `$estat` alone, so only an entry is left to change it. -/
theorem causeChangesOnlyAtEntry : Obligations.CauseChangesOnlyAtEntry := by
  intro s t hd profile h
  rcases step_specials hd h with same | ⟨cause, ret, legal, target, why, writes, entered⟩ |
    ⟨w, -, -, -, ⟨n, rs, k, -, -, writable, rfl⟩ | ⟨-, rfl⟩⟩
  · exact .inl same.estat
  · obtain rfl : t.estat = cause := writes.estat
    exact .inr ⟨legal, target, why, ret, writes, entered⟩
  · exact .inl (estat_setSpecial (s := withLines s) (profile ▸ writable) _)
  · exact .inl rfl

/-- Under `gpf` user mode executes neither `movgs` nor `rfe`. -/
theorem privilegeFault_of_user (hk : s.ku ≠ s.platform.kuKernel) (hm : MayStep s)
    (hp : s.platform.userMode ≠ .unrestricted) : s.privilegeFault = true := by
  have gpf : s.platform.userMode = .gpf := by
    rcases hm with hm | hm
    · exact absurd hm hk
    · cases hu : s.platform.userMode <;> simp_all
  simp [State.privilegeFault, State.inUserMode, hk, gpf]

/-- Settles O58: a step of user mode that is no entry leaves `KU` alone, since `movgs` and `rfe` take the
general protection exception there. -/
theorem userModeLeftOnlyByEntry : Obligations.UserModeLeftOnlyByEntry := by
  intro s t hd h hp user kernel
  rcases step_specials hd h with same | ⟨cause, ret, -, -, -, writes, -⟩ | ⟨w, -, hm, allowed, -⟩
  · have ku : t.ku = s.ku := same.ku
    simp [user, kernel] at ku
  · exact ⟨cause, ret, writes⟩
  · have fault := privilegeFault_of_user (by simp [user, hd.kernel]) hm hp
    simp [fault] at allowed

/-- Under the default profile only number 4 names `$cctrl`. -/
theorem named_profile_cctrl {n : Reg} (h : SprLayout.profile.named? n = some .cctrl) : n = 4#4 := by
  revert n; decide

theorem ku_setSpecial {k : Special} (h : k ≠ .cctrl) (v : Word) : (s.setSpecial k v).ku = s.ku := by
  cases k with
  | cctrl => exact absurd rfl h
  | _ => rfl

/-- Settles O59: an entry sets `KU`, so `rfe` and a `movgs` to `$cctrl` are left to clear it. -/
theorem kernelModeLeftOnlyByRfeOrMovgs : Obligations.KernelModeLeftOnlyByRfeOrMovgs := by
  intro s t hd profile h kernel user
  rcases step_specials hd h with same | ⟨cause, ret, -, -, -, writes, -⟩ |
    ⟨w, hw, -, -, ⟨n, rs, k, hi, named, -, rfl⟩ | ⟨hi, rfl⟩⟩
  · have ku : t.ku = s.ku := same.ku
    simp [user, kernel] at ku
  · have ku : t.ku = true := writes.ku
    simp [user] at ku
  · have ku : ((withLines s).setSpecial k (s.reg rs)).ku = false := user
    by_cases hk : k = .cctrl
    · subst hk
      rw [profile] at named
      obtain rfl := named_profile_cctrl named
      refine ⟨w, hw, .inr ⟨rs, hi, ?_⟩⟩
      have bit : (s.reg rs).getLsbD s.platform.spr.kuBit = false := ku
      rwa [profile] at bit
    · rw [ku_setSpecial hk] at ku
      exact absurd (kernel.symm.trans ku) (by decide)
  · exact ⟨w, hw, .inl ⟨hi, user⟩⟩

end Sys2Proof.Machine
end

section
/-! PROOFS. The arithmetic instructions (spec/40_arithmetic.md, spec/60_exceptions.md section 2): results in
range, the exceptions outside it, and the same read from bits. -/

namespace Sys2Proof.Machine

/-! ### Division of integers by its defining equation (40_arithmetic.md R154, D10) -/

section IntegerDivision

variable {a b q r : Int}

/-- A remainder of 0 by `b` that is smaller than `b` is 0. -/
theorem eq_zero_of_multiple (sum : 0 = q * b + r) (small : r.natAbs < b.natAbs) : r = 0 := by
  have divides : b ∣ r := ⟨-q, by rw [Int.mul_neg, Int.mul_comm b q]; omega⟩
  by_contra hr
  exact absurd (Int.natAbs_dvd_natAbs.2 divides |> Nat.le_of_dvd (Int.natAbs_pos.2 hr)) (by omega)

theorem tdiv_eq_of_sign (sum : a = q * b + r) (small : r.natAbs < b.natAbs) (sign : 0 ≤ r * a) :
    a.tdiv b = q := by
  have hb : b ≠ 0 := by rintro rfl; simp at small
  have sum' : r + b * q = a := by rw [Int.mul_comm]; omega
  rcases lt_trichotomy a 0 with ha | ha | ha
  · have hr : r ≤ 0 := by nlinarith
    exact ((Int.tdiv_tmod_unique' ha.le hb).2 ⟨sum', by omega, hr⟩).1
  · have hr : r = 0 := eq_zero_of_multiple (ha ▸ sum) small
    exact ((Int.tdiv_tmod_unique ha.ge hb).2 ⟨sum', by omega, by omega⟩).1
  · have hr : 0 ≤ r := by nlinarith
    exact ((Int.tdiv_tmod_unique ha.le hb).2 ⟨sum', hr, by omega⟩).1

theorem fdiv_eq_of_sign (sum : a = q * b + r) (small : r.natAbs < b.natAbs) (sign : 0 ≤ r * b) :
    a.fdiv b = q := by
  have sum' : r + b * q = a := by rw [Int.mul_comm]; omega
  rcases lt_trichotomy b 0 with hb | hb | hb
  · have hr : r ≤ 0 := by nlinarith
    exact ((Int.fdiv_fmod_unique' hb).2 ⟨sum', by omega, hr⟩).1
  · simp [hb] at small
  · have hr : 0 ≤ r := by nlinarith
    exact ((Int.fdiv_fmod_unique hb).2 ⟨sum', hr, by omega⟩).1

theorem tdiv_tmod_division (a : Int) (hb : b ≠ 0) : a = a.tdiv b * b + a.tmod b ∧
    (a.tmod b).natAbs < b.natAbs ∧ 0 ≤ a.tmod b * a := by
  rcases le_total 0 a with ha | ha
  · obtain ⟨sum, lo, hi⟩ := (Int.tdiv_tmod_unique ha hb).1 ⟨rfl, rfl⟩
    exact ⟨by rw [Int.mul_comm]; omega, by omega, mul_nonneg lo ha⟩
  · obtain ⟨sum, lo, hi⟩ := (Int.tdiv_tmod_unique' ha hb).1 ⟨rfl, rfl⟩
    exact ⟨by rw [Int.mul_comm]; omega, by omega, mul_nonneg_of_nonpos_of_nonpos hi ha⟩

theorem fdiv_fmod_division (a : Int) (hb : b ≠ 0) : a = a.fdiv b * b + a.fmod b ∧
    (a.fmod b).natAbs < b.natAbs ∧ 0 ≤ a.fmod b * b := by
  rcases lt_or_gt_of_ne hb with hb | hb
  · obtain ⟨sum, lo, hi⟩ := (Int.fdiv_fmod_unique' hb).1 ⟨rfl, rfl⟩
    exact ⟨by rw [Int.mul_comm]; omega, by omega, mul_nonneg_of_nonpos_of_nonpos hi hb.le⟩
  · obtain ⟨sum, lo, hi⟩ := (Int.fdiv_fmod_unique hb).1 ⟨rfl, rfl⟩
    exact ⟨by rw [Int.mul_comm]; omega, by omega, mul_nonneg lo hb.le⟩

/-- R154: the quotient by its remainder, which has the sign `DIV_ROUND` asks for. -/
theorem quotient_eq_of_sign {round : DivRound} (sum : a = q * b + r) (small : r.natAbs < b.natAbs)
    (sign : (round = .towardZero ∧ 0 ≤ r * a) ∨ (round = .floor ∧ 0 ≤ r * b)) :
    quotient round a b = q := by
  rcases sign with ⟨rfl, sign⟩ | ⟨rfl, sign⟩
  · exact tdiv_eq_of_sign sum small sign
  · exact fdiv_eq_of_sign sum small sign

end IntegerDivision

/-! ### How an arithmetic instruction ends (40_arithmetic.md R130, R153, R154) -/

section Endings

variable {i : Instr} {s : State} {rd : Reg} {r : Int} {a b v : Word}

theorem completes_of_signedArith (hs : HasSuccessor s) (h : exec i s = s.signedArith rd r)
    (lo : -2147483648 ≤ r) (hi : r ≤ 2147483647) : Completes i s rd (BitVec.ofInt 32 r) :=
  completes_of_finish hs (h.trans (State.signedArith_fits lo hi))

theorem completes_of_unsignedArith (hs : HasSuccessor s) (h : exec i s = s.unsignedArith rd r)
    (lo : 0 ≤ r) (hi : r ≤ 4294967295) : Completes i s rd (BitVec.ofInt 32 r) :=
  completes_of_finish hs (h.trans (State.unsignedArith_fits lo hi))

theorem completes_of_divide (hs : HasSuccessor s) (h : exec i s = s.divide rd b v) (hb : b ≠ 0#32) :
    Completes i s rd v :=
  completes_of_finish hs (h.trans (State.divide_by_nonzero hb))

/-- -2^31 and -1 are the signed numbers of one word each. -/
theorem State.signedDivide_of_toInt
    (wraps : s.platform.divMinNeg1 = .wrap ∨ a.toInt ≠ -2147483648 ∨ b.toInt ≠ -1) :
    s.signedDivide rd a b v = s.divide rd b v :=
  State.signedDivide_of (wraps.imp_right (Or.imp (fun h e => h (e ▸ rfl)) fun h e => h (e ▸ rfl)))

theorem completes_of_signedDivide (hs : HasSuccessor s)
    (wraps : s.platform.divMinNeg1 = .wrap ∨ a.toInt ≠ -2147483648 ∨ b.toInt ≠ -1)
    (hb : b.toInt ≠ 0) (h : exec i s = s.signedDivide rd a b v) : Completes i s rd v :=
  completes_of_divide hs (h.trans (State.signedDivide_of_toInt wraps)) fun e => hb (e ▸ rfl)

theorem refuses_of_signedDivide (hp : s.platform.divMinNeg1 = .refuse) (ha : a.toInt = -2147483648)
    (hb : b.toInt = -1) (h : exec i s = s.signedDivide rd a b v) :
    exec i s = .refused .divideMinByMinusOne := by
  obtain rfl : a = 0x80000000#32 := BitVec.eq_of_toInt_eq ha
  obtain rfl : b = 0xFFFFFFFF#32 := BitVec.eq_of_toInt_eq hb
  exact h.trans (State.signedDivide_refused hp)

/-- R154: the quotient and the remainder a signed division writes. -/
theorem signedQuotient_eq {round : DivRound} {q : Int} (sum : a.toInt = q * b.toInt + r)
    (small : r.natAbs < b.toInt.natAbs)
    (sign : (round = .towardZero ∧ 0 ≤ r * a.toInt) ∨ (round = .floor ∧ 0 ≤ r * b.toInt)) :
    signedQuotient round a b = BitVec.ofInt 32 q ∧ signedRemainder round a b = BitVec.ofInt 32 r := by
  have quot : quotient round a.toInt b.toInt = q := quotient_eq_of_sign sum small sign
  have rem : a.toInt - q * b.toInt = r := by omega
  rw [signedQuotient, signedRemainder, quot, rem]
  exact ⟨rfl, rfl⟩

theorem unsignedQuotient_eq (a b : Word) :
    unsignedQuotient a b = BitVec.ofNat 32 (a.toNat / b.toNat) := BitVec.ofInt_natCast ..

theorem unsignedRemainder_eq (a b : Word) :
    unsignedRemainder a b = BitVec.ofNat 32 (a.toNat % b.toNat) := BitVec.ofInt_natCast ..

/-- R153: inside the range the result, outside it the exception. -/
theorem outcome_of_signedArith (hd : DecidedTrap s) (h : exec i s = s.signedArith rd r) :
    if r < -2147483648 ∨ 2147483647 < r then RaisesArith i s rd 0x8000#32
    else Completes i s rd (BitVec.ofInt 32 r) := by
  split
  case isTrue out => exact raisesArith_of_arithTrap hd (h.trans (State.signedArith_overflows out))
  case isFalse fits => exact completes_of_signedArith hd.successor h (by omega) (by omega)

theorem outcome_of_unsignedArith (hd : DecidedTrap s) (h : exec i s = s.unsignedArith rd r) :
    if r < 0 ∨ 4294967295 < r then RaisesArith i s rd 0x8000#32
    else Completes i s rd (BitVec.ofInt 32 r) := by
  split
  case isTrue out => exact raisesArith_of_arithTrap hd (h.trans (State.unsignedArith_overflows out))
  case isFalse fits => exact completes_of_unsignedArith hd.successor h (by omega) (by omega)

theorem raises_of_divide_by_zero (hd : DecidedTrap s) (h : exec i s = s.divide rd b v)
    (zero : b = 0#32) : RaisesArith i s rd 0x8000#32 :=
  raisesArith_of_arithTrap hd (h.trans (zero ▸ State.divide_by_zero))

/-- A zero divisor is not -1, so `DIV_MIN_NEG1` does not matter. -/
theorem raises_of_signedDivide_by_zero (hd : DecidedTrap s) (h : exec i s = s.signedDivide rd a b v)
    (zero : b = 0#32) : RaisesArith i s rd 0x8000#32 :=
  raises_of_divide_by_zero hd
    (h.trans (State.signedDivide_of (.inr (.inr (by rw [zero]; decide))))) zero

end Endings

/-! ### Results in range -/

/-- Settles O13: a signed result inside the range is not an overflow. -/
theorem signedAddSubResults : Obligations.SignedAddSubResults := by
  intro rd rs rt imm s hs
  simp only [← sext_toInt imm]
  exact ⟨completes_of_signedArith hs rfl, completes_of_signedArith hs rfl,
    completes_of_signedArith hs rfl, completes_of_signedArith hs rfl⟩

/-- Settles O14: an unsigned result inside the range is not an overflow. -/
theorem unsignedAddSubResults : Obligations.UnsignedAddSubResults := by
  intro rd rs rt imm s hs
  simp only [← zext_toNat imm]
  exact ⟨completes_of_unsignedArith hs rfl, completes_of_unsignedArith hs rfl,
    completes_of_unsignedArith hs rfl, completes_of_unsignedArith hs rfl⟩

/-- Settles O15.  An unsigned product is never below the range. -/
theorem multiplyResults : Obligations.MultiplyResults := by
  intro rd rs rt imm s hs
  simp only [← sext_toInt imm, ← zext_toNat imm]
  exact ⟨completes_of_signedArith hs rfl, completes_of_signedArith hs rfl,
    completes_of_unsignedArith hs rfl (by positivity),
    completes_of_unsignedArith hs rfl (by positivity)⟩

/-- Settles O16: the sign of the remainder fixes the quotient, and -2^31 by -1 is one pair of words. -/
theorem signedDivisionResults : Obligations.SignedDivisionResults := by
  refine ⟨fun rd rs rt s q r hs wraps sum small sign => ?_,
    fun rd rs imm s q r hs wraps sum small sign => ?_, fun a b hb => ?_, fun rd rs rt s hp ha => ?_⟩
  · have hb : (s.reg rt).toInt ≠ 0 := by intro h; simp [h] at small
    obtain ⟨quot, rem⟩ := signedQuotient_eq sum small sign
    exact ⟨quot ▸ completes_of_signedDivide hs wraps hb rfl,
      rem ▸ completes_of_signedDivide hs wraps hb rfl⟩
  · simp only [← sext_toInt imm] at wraps sum small sign
    have hb : (sext imm).toInt ≠ 0 := by intro h; simp [h] at small
    obtain ⟨quot, rem⟩ := signedQuotient_eq sum small sign
    exact ⟨quot ▸ completes_of_signedDivide hs wraps hb rfl,
      rem ▸ completes_of_signedDivide hs wraps hb rfl⟩
  · obtain ⟨sum, small, sign⟩ := tdiv_tmod_division a hb
    obtain ⟨sum', small', sign'⟩ := fdiv_fmod_division a hb
    exact ⟨_, _, _, _, sum, small, sign, sum', small', sign'⟩
  · exact ⟨fun hb => ⟨refuses_of_signedDivide hp ha hb rfl, refuses_of_signedDivide hp ha hb rfl⟩,
      refuses_of_signedDivide hp ha (by decide) rfl, refuses_of_signedDivide hp ha (by decide) rfl⟩

theorem zext_ne_zero {imm : Imm} (h : imm ≠ 0#16) : zext imm ≠ 0#32 := by
  intro e
  apply h
  apply BitVec.eq_of_toNat_eq
  rw [← zext_toNat, e]; rfl

/-- Settles O17: an immediate that is not zero extends to a divisor that is not zero. -/
theorem unsignedDivisionResults : Obligations.UnsignedDivisionResults := by
  intro rd rs rt imm s hs
  simp only [← zext_toNat imm, ← unsignedQuotient_eq, ← unsignedRemainder_eq]
  exact ⟨fun hb => ⟨completes_of_divide hs rfl hb, completes_of_divide hs rfl hb⟩,
    fun hb => ⟨completes_of_divide hs rfl (zext_ne_zero hb),
      completes_of_divide hs rfl (zext_ne_zero hb)⟩⟩

/-! ### The exceptions -/

/-- Settles O18: either range test sends the result to `finish` or to the trap, never to both. -/
theorem overflowTraps : Obligations.OverflowTraps := by
  intro rd rs rt imm s hd
  simp only [← sext_toInt imm, ← zext_toNat imm]
  exact ⟨outcome_of_signedArith hd rfl, outcome_of_signedArith hd rfl, outcome_of_signedArith hd rfl,
    outcome_of_signedArith hd rfl, outcome_of_signedArith hd rfl, outcome_of_signedArith hd rfl,
    outcome_of_unsignedArith hd rfl, outcome_of_unsignedArith hd rfl, outcome_of_unsignedArith hd rfl,
    outcome_of_unsignedArith hd rfl, outcome_of_unsignedArith hd rfl, outcome_of_unsignedArith hd rfl⟩

/-- Settles O19: extended either way the immediate 0 is the word 0. -/
theorem divideByZeroTraps : Obligations.DivideByZeroTraps := by
  intro rd rs rt s hd
  refine ⟨fun zero => ⟨?_, ?_, ?_, ?_⟩, ?_, ?_, ?_, ?_⟩
  · exact raises_of_signedDivide_by_zero hd rfl zero
  · exact raises_of_divide_by_zero hd rfl zero
  · exact raises_of_signedDivide_by_zero hd rfl zero
  · exact raises_of_divide_by_zero hd rfl zero
  · exact raises_of_signedDivide_by_zero hd rfl (by decide)
  · exact raises_of_divide_by_zero (v := unsignedQuotient (s.reg rs) (zext 0#16)) hd rfl rfl
  · exact raises_of_signedDivide_by_zero hd rfl (by decide)
  · exact raises_of_divide_by_zero (v := unsignedRemainder (s.reg rs) (zext 0#16)) hd rfl rfl

/-! ### Overflow read from the bits of a result -/

section Bits

variable (a b : Word)

theorem ofInt_toInt_add : BitVec.ofInt 32 (a.toInt + b.toInt) = a + b := by
  rw [BitVec.ofInt_add, BitVec.ofInt_toInt, BitVec.ofInt_toInt]

theorem ofInt_toInt_sub : BitVec.ofInt 32 (a.toInt - b.toInt) = a - b := by
  rw [Int.sub_eq_add_neg, BitVec.ofInt_add, BitVec.ofInt_neg, BitVec.ofInt_toInt, BitVec.ofInt_toInt,
    BitVec.sub_eq_add_neg]

theorem ofInt_toNat : BitVec.ofInt 32 (a.toNat : Int) = a := by
  rw [BitVec.ofInt_natCast, BitVec.ofNat_toNat, BitVec.setWidth_eq]

theorem ofInt_toNat_add : BitVec.ofInt 32 ((a.toNat : Int) + b.toNat) = a + b := by
  rw [BitVec.ofInt_add, ofInt_toNat, ofInt_toNat]

theorem ofInt_toNat_sub : BitVec.ofInt 32 ((a.toNat : Int) - b.toNat) = a - b := by
  rw [Int.sub_eq_add_neg, BitVec.ofInt_add, BitVec.ofInt_neg, ofInt_toNat, ofInt_toNat,
    BitVec.sub_eq_add_neg]

theorem signedSum_overflows_iff :
    (a.toInt + b.toInt < -2147483648 ∨ 2147483647 < a.toInt + b.toInt) ↔
      a.msb = b.msb ∧ (a + b).msb ≠ a.msb := by
  have h := BitVec.saddOverflow_eq a b
  rw [BitVec.saddOverflow, Bool.eq_iff_iff] at h
  simp only [Bool.or_eq_true, decide_eq_true_eq, Bool.and_eq_true, beq_iff_eq, Bool.not_eq_true',
    beq_eq_false_iff_ne] at h
  rw [← h]
  omega

theorem signedDifference_overflows_iff :
    (a.toInt - b.toInt < -2147483648 ∨ 2147483647 < a.toInt - b.toInt) ↔
      a.msb ≠ b.msb ∧ (a - b).msb ≠ a.msb := by
  have h := BitVec.ssubOverflow_eq a b
  have bits : (a.ssubOverflow b = true) ↔ a.msb ≠ b.msb ∧ (a - b).msb ≠ a.msb := by
    rw [h]
    cases a.msb <;> cases b.msb <;> simp
  rw [← bits, BitVec.ssubOverflow]
  simp only [Bool.or_eq_true, decide_eq_true_eq]
  omega

theorem unsignedSum_overflows_iff :
    ((a.toNat : Int) + b.toNat < 0 ∨ 4294967295 < (a.toNat : Int) + b.toNat) ↔
      (a.setWidth 33 + b.setWidth 33).msb = true := by
  rw [← BitVec.uaddOverflow_eq, BitVec.uaddOverflow, decide_eq_true_eq]
  omega

theorem unsignedDifference_overflows_iff :
    ((a.toNat : Int) - b.toNat < 0 ∨ 4294967295 < (a.toNat : Int) - b.toNat) ↔ a.ult b = true := by
  have := a.isLt
  rw [BitVec.ult_iff_lt, BitVec.lt_def]
  omega

end Bits

/-- Settles O20: each overflow condition of R153 as the bits of the wrapped result. -/
theorem overflowFromSignAndCarry : Obligations.OverflowFromSignAndCarry := by
  intro rd rs rt s hd
  simp only [← signedSum_overflows_iff, ← signedDifference_overflows_iff, ← unsignedSum_overflows_iff,
    ← unsignedDifference_overflows_iff]
  refine ⟨?_, ?_, ?_, ?_⟩
  · exact ofInt_toInt_add _ _ ▸ outcome_of_signedArith hd rfl
  · exact ofInt_toInt_sub _ _ ▸ outcome_of_signedArith hd rfl
  · exact ofInt_toNat_add _ _ ▸ outcome_of_unsignedArith hd rfl
  · exact ofInt_toNat_sub _ _ ▸ outcome_of_unsignedArith hd rfl

/-! ### The 64-bit products -/

section WideProduct

variable (a b : Word)

/-- The exact product of two signed 32-bit numbers has no more than 63 bits. -/
theorem wideProduct_toInt : (a.signExtend 64 * b.signExtend 64).toInt = a.toInt * b.toInt := by
  have lo := BitVec.le_toInt_mul_toInt (x := a) (y := b)
  have hi := BitVec.toInt_mul_toInt_le (x := a) (y := b)
  rw [BitVec.toInt_mul, BitVec.toInt_signExtend_of_le (by decide),
    BitVec.toInt_signExtend_of_le (by decide)]
  exact Int.bmod_eq_of_le (by omega) (by omega)

theorem wideProduct_toNat : (a.setWidth 64 * b.setWidth 64).toNat = a.toNat * b.toNat := by
  have fits := BitVec.toNat_mul_toNat_lt (x := a) (y := b)
  rw [BitVec.toNat_mul, BitVec.toNat_setWidth_of_le (by decide),
    BitVec.toNat_setWidth_of_le (by decide)]
  exact Nat.mod_eq_of_lt fits

theorem wideProduct_signed_low : (a.signExtend 64 * b.signExtend 64).setWidth 32 = a * b := by
  have low (x : Word) : (x.signExtend 64).setWidth 32 = x := by
    refine BitVec.eq_of_getLsbD_eq fun k hk => ?_
    simp only [BitVec.getLsbD_setWidth, BitVec.getLsbD_signExtend, hk, show k < 64 by omega,
      decide_true, Bool.true_and, if_true]
  rw [BitVec.setWidth_mul _ _ (by decide), low, low]

theorem wideProduct_unsigned_low : (a.setWidth 64 * b.setWidth 64).setWidth 32 = a * b := by
  rw [BitVec.setWidth_mul _ _ (by decide)]
  simp

theorem ofInt_toInt_mul : BitVec.ofInt 32 (a.toInt * b.toInt) = a * b := by
  rw [BitVec.ofInt_mul, BitVec.ofInt_toInt, BitVec.ofInt_toInt]

theorem ofInt_toNat_mul : BitVec.ofInt 32 ((a.toNat : Int) * b.toNat) = a * b := by
  rw [BitVec.ofInt_mul, ofInt_toNat, ofInt_toNat]

/-- A product that is the sign extension of its low word is a number of 32 bits, and the other way. -/
theorem signedProduct_overflows_iff :
    (a.toInt * b.toInt < -2147483648 ∨ 2147483647 < a.toInt * b.toInt) ↔
      ¬ a.signExtend 64 * b.signExtend 64 = (a * b).signExtend 64 := by
  have lo := BitVec.le_toInt (a * b)
  have hi := BitVec.toInt_lt (x := a * b)
  rw [← BitVec.toInt_inj, wideProduct_toInt, BitVec.toInt_signExtend_of_le (by decide)]
  constructor
  · omega
  · intro h
    by_contra fits
    refine h ?_
    rw [BitVec.toInt_mul]
    exact (Int.bmod_eq_of_le (by omega) (by omega)).symm

theorem unsignedProduct_overflows_iff :
    ((a.toNat : Int) * b.toNat < 0 ∨ 4294967295 < (a.toNat : Int) * b.toNat) ↔
      ¬ (a.setWidth 64 * b.setWidth 64).extractLsb' 32 32 = 0#32 := by
  have fits := BitVec.toNat_mul_toNat_lt (x := a) (y := b)
  rw [← BitVec.toNat_inj, BitVec.extractLsb'_toNat, wideProduct_toNat, Nat.shiftRight_eq_div_pow,
    ← Int.natCast_mul]
  simp only [BitVec.toNat_ofNat]
  omega

end WideProduct

/-- Settles O21: the low word of the product is the product of the words, and the product fits exactly
where its high word adds nothing. -/
theorem overflowFromWideProduct : Obligations.OverflowFromWideProduct := by
  intro rd rs rt s hd
  simp only [wideProduct_signed_low, wideProduct_unsigned_low]
  have signed := outcome_of_signedArith (i := .mult rd rs rt) hd rfl
  have unsigned := outcome_of_unsignedArith (i := .multu rd rs rt) hd rfl
  rw [ofInt_toInt_mul] at signed
  rw [ofInt_toNat_mul] at unsigned
  simp only [signedProduct_overflows_iff, unsignedProduct_overflows_iff, ite_not] at signed unsigned
  exact ⟨signed, unsigned⟩

/-! ### Shifts as multiplication and division (41_bitwise.md Laws) -/

section ShiftLaws

variable {a b : Word} {n : Nat}

theorem shiftRight_eq_unsignedQuotient (hb : b.toNat = 2 ^ n) :
    a >>> n = unsignedQuotient a b := by
  rw [unsignedQuotient_eq, hb]
  exact shiftRight_eq a n

theorem shiftLeft_eq_product (hb : b.toNat = 2 ^ n) :
    a <<< n = to32 ((a.toNat : Int) * b.toNat) := by
  rw [to32, ← Int.natCast_mul, BitVec.ofInt_natCast, hb]
  exact shiftLeft_eq a n

theorem toInt_of_toNat_eq_pow (hb : b.toNat = 2 ^ n) (hn : n < 31) : b.toInt = 2 ^ n := by
  have small : 2 ^ n ≤ 2 ^ 30 := Nat.pow_le_pow_right (by decide) (by omega)
  rw [BitVec.toInt_eq_toNat_cond, if_pos (by omega), hb]
  push_cast
  rfl

/-- Where the dividend is not negative or the division is exact, both roundings are the one of the
shift. -/
theorem quotient_eq_ediv {round : DivRound} {x y : Int} (hy : 0 ≤ y) (h : 0 ≤ x ∨ y ∣ x) :
    quotient round x y = x / y := by
  cases round with
  | towardZero => exact h.elim Int.tdiv_eq_ediv_of_nonneg Int.tdiv_eq_ediv_of_dvd
  | floor => exact Int.fdiv_eq_ediv_of_nonneg x hy

theorem shiftRightArith_eq_signedQuotient {round : DivRound} (hb : b.toNat = 2 ^ n) (hn : n < 31)
    (h : 0 ≤ a.toInt ∨ b.toInt ∣ a.toInt) : a.sshiftRight n = signedQuotient round a b := by
  have value := toInt_of_toNat_eq_pow hb hn
  rw [signedQuotient, quotient_eq_ediv (by rw [value]; positivity) h, value]
  exact shiftRightArith_eq a n

end ShiftLaws

/-- Settles O22: a power of two is neither 0 nor -1, so each division ends with its quotient, which is the
shifted word. -/
theorem shiftsAreMultiplicationAndDivision : Obligations.ShiftsAreMultiplicationAndDivision := by
  intro rd rs rt rq s power
  have positive : 0 < (s.reg rq).toNat := power ▸ Nat.two_pow_pos _
  have nonzero : s.reg rq ≠ 0#32 := by intro h; simp [h] at positive
  refine ⟨?_, fun fits => ?_, fun hn h => ?_⟩
  · rw [exec_srl, shiftRight_eq_unsignedQuotient power]
    exact (State.divide_by_nonzero nonzero).symm
  · rw [exec_sll, shiftLeft_eq_product power]
    exact (State.unsignedArith_fits (by positivity) (by rw [← Int.natCast_mul]; omega)).symm
  · have value := toInt_of_toNat_eq_pow power hn
    have wraps : (s.reg rq).toInt ≠ -1 := by
      have : (0 : Int) < 2 ^ ((s.reg rt).toNat % 32) := by positivity
      omega
    rw [exec_sra, shiftRightArith_eq_signedQuotient power hn h]
    exact ((State.signedDivide_of_toInt (.inr (.inr wraps))).trans
      (State.divide_by_nonzero nonzero)).symm

/-! ### The test instructions (42_test.md Laws) -/

section TestLaws

theorem truth_toNat_le (p : Bool) : (truth p).toNat ≤ 1 := by cases p <;> decide

theorem truth_of_negated {p q : Prop} [Decidable p] [Decidable q] (h : q ↔ ¬ p) :
    truth (decide q) = truth (decide p) ^^^ 1#32 := by
  by_cases hp : p <;> simp [truth, h, hp]

theorem completes_of_negated_test {i : Instr} {s : State} {rd : Reg} {p q : Prop} [Decidable p]
    [Decidable q] (hs : HasSuccessor s) (h : q ↔ ¬ p) (hx : exec i s = s.test rd (decide q)) :
    Completes i s rd (truth (decide p) ^^^ 1#32) :=
  truth_of_negated h ▸ completes_of_finish hs hx

variable {a b : Word}

theorem toInt_lt_iff_of_msb_eq (h : a.msb = b.msb) : a.toInt < b.toInt ↔ a.toNat < b.toNat := by
  rw [BitVec.toInt_eq_msb_cond, BitVec.toInt_eq_msb_cond b, h]
  split <;> omega

theorem toNat_lt_iff_of_msb_ne (h : a.msb ≠ b.msb) : a.toNat < b.toNat ↔ ¬ a.toInt < b.toInt := by
  have := a.isLt
  have := b.isLt
  rw [ne_eq, BitVec.msb_eq_decide, BitVec.msb_eq_decide, decide_eq_decide] at h
  rw [BitVec.toInt_eq_toNat_cond, BitVec.toInt_eq_toNat_cond b]
  split <;> split <;> omega

end TestLaws

/-- Settles O23: the relations are those of the integers and naturals the words stand for. -/
theorem testInstructionRelations : Obligations.TestInstructionRelations := by
  intro rd rs rt s
  refine ⟨⟨?_, ?_⟩, ⟨rfl, rfl, rfl, rfl⟩, fun hs => ?_, ?_⟩
  · simp only [exec, execSeq, execSequ, BitVec.toInt_inj, BitVec.toNat_inj]
  · simp only [exec, execSne, execSneu, ne_eq, BitVec.toInt_inj, BitVec.toNat_inj]
  · refine ⟨_, _, _, completes_of_finish hs rfl, completes_of_negated_test hs not_lt.symm rfl,
      completes_of_finish hs rfl, completes_of_negated_test hs not_lt.symm rfl,
      completes_of_finish hs rfl, completes_of_negated_test hs Iff.rfl rfl, truth_toNat_le _,
      truth_toNat_le _, truth_toNat_le _⟩
  · split
    case isTrue h => simp only [exec, execSlt, execSltu, toInt_lt_iff_of_msb_eq h]
    case isFalse h =>
      exact fun hs => ⟨_, truth_toNat_le _, completes_of_finish hs rfl,
        completes_of_negated_test hs (toNat_lt_iff_of_msb_ne h) rfl⟩

end Sys2Proof.Machine
end

section
/-! PROOFS. Linking jumps, branches and the memory instructions (spec/43_branch.md,
spec/44_memory_instructions.md, spec/20_memory.md): where each goes, what it accesses and when it stops. -/

namespace Sys2Proof.Machine

variable {s t : State} {rd rs : Reg} {off : Addr}

/-! ### The successor of the last address, as numbers -/

theorem not_hasSuccessor (hp : s.platform.pcWrap = .refuse) (hpc : s.pc = 0xFFFFF#20) :
    ¬ HasSuccessor s := by
  simp [HasSuccessor, hp, hpc]

theorem hasSuccessor_iff_toNat : HasSuccessor s ↔ s.platform.pcWrap = .wrap ∨ s.pc.toNat < 1048575 := by
  have bound := s.pc.isLt
  refine or_congr_right ?_
  rw [ne_eq, ← BitVec.toNat_inj, BitVec.toNat_ofNat]
  omega

theorem pcWrap_eq_refuse (h : s.platform.pcWrap ≠ .wrap) : s.platform.pcWrap = .refuse := by
  cases hp : s.platform.pcWrap with
  | wrap => exact absurd hp h
  | refuse => rfl

/-! ### Jumps that link (43_branch.md R223, R224) -/

/-- Settles O25: where there is a next address both link to it; at the last one under refuse, neither. -/
theorem jumpAndLinkResults : Obligations.JumpAndLinkResults := by
  intro addr rs s
  refine ⟨fun hs => ⟨links_of_link hs rfl, ?_⟩, fun hp hpc => ⟨?_, ?_⟩⟩
  · exact addrOfWord_eq_ofNat_mod (s.reg rs) ▸ links_of_link hs rfl
  · exact hpc ▸ State.inSequence_refused (not_hasSuccessor hp hpc)
  · exact hpc ▸ State.inSequence_refused (not_hasSuccessor hp hpc)

/-! ### Branches (43_branch.md R225, R226) -/

theorem exec_beqz_zero (h : s.reg rs = 0#32) : exec (.beqz rs off) s = s.branchTo off := by
  simp [exec, execBeqz, State.branch, h]

theorem exec_beqz_nonzero (h : s.reg rs ≠ 0#32) :
    exec (.beqz rs off) s = s.inSequence (.next s.advance) := by
  simp [exec, execBeqz, State.branch, h]

theorem exec_bnez_zero (h : s.reg rs = 0#32) :
    exec (.bnez rs off) s = s.inSequence (.next s.advance) := by
  simp [exec, execBnez, State.branch, h]

theorem exec_bnez_nonzero (h : s.reg rs ≠ 0#32) : exec (.bnez rs off) s = s.branchTo off := by
  simp [exec, execBnez, State.branch, h]

theorem branchSum_eq (base : BranchBase) (pc : Addr) :
    branchSum base pc off = pc.toNat + (if base = .next then 1 else 0) + off.toInt := by
  cases base <;> simp [branchSum]

theorem advance_eq_setPc {fall : Addr} (h : fall.toNat = (s.pc.toNat + 1) % 1048576) :
    s.advance = s.setPc fall := by
  have : s.pc + 1#20 = fall := BitVec.eq_of_toNat_eq (by rw [BitVec.toNat_add]; exact h.symm)
  rw [State.advance_eq, this]

/-- Settles O26: a branch is `branchTo` or the step to the next instruction, as `Rs` is zero or not;
each ends the way its sum allows. -/
theorem branchResults : Obligations.BranchResults := by
  intro rs off s sum target fall hsum htarget hfall
  rw [← branchSum_eq] at hsum
  have reached : branchTarget s.platform.branchBase s.pc off = target := by
    have := branchTarget_toNat s.platform.branchBase s.pc off
    rw [← hsum, ← htarget] at this
    exact BitVec.eq_of_toNat_eq (by omega)
  constructor
  · split
    case isTrue h =>
      have taken := State.branchTo_of (hsum ▸ h)
      rw [reached] at taken
      exact ⟨fun hz => jumps_of_setPc ((exec_beqz_zero hz).trans taken),
        fun hz => jumps_of_setPc ((exec_bnez_nonzero hz).trans taken)⟩
    case isFalse h =>
      obtain ⟨hp, outside⟩ := not_or.1 h
      have refused := State.branchTo_refused (pcWrap_eq_refuse hp) (off := off) (by omega)
      exact ⟨fun hz => (exec_beqz_zero hz).trans refused,
        fun hz => (exec_bnez_nonzero hz).trans refused⟩
  · split
    case isTrue h =>
      have hs := hasSuccessor_iff_toNat.2 h
      have fell : s.inSequence (.next s.advance) = .next (s.setPc fall) := by
        rw [State.inSequence_of hs, advance_eq_setPc hfall]
      exact ⟨fun hz => jumps_of_setPc ((exec_beqz_nonzero hz).trans fell),
        fun hz => jumps_of_setPc ((exec_bnez_zero hz).trans fell)⟩
    case isFalse h =>
      have hs := mt hasSuccessor_iff_toNat.1 h
      exact ⟨fun hz => (exec_beqz_nonzero hz).trans (State.inSequence_refused hs),
        fun hz => (exec_bnez_zero hz).trans (State.inSequence_refused hs)⟩

/-! ### Address sums (30_encoding.md R105, R106, 44_memory_instructions.md R235) -/

theorem effectiveAddress_toNat (base : Word) (off : Addr) :
    ((effectiveAddress base off).toNat : Int) = ((base.toNat : Int) + off.toInt) % 4294967296 := by
  rw [effectiveAddress, BitVec.toInt_signExtend_of_le (by decide), to32, BitVec.toNat_ofInt]
  omega

theorem accessAddress_eq_add (base : Word) (off : Addr) :
    accessAddress base off = base.setWidth 20 + off := by
  have ea := effectiveAddress_toNat base off
  have sign := BitVec.toInt_eq_toNat_cond off
  apply BitVec.eq_of_toNat_eq
  rw [accessAddress, addrOfWord_toNat, BitVec.toNat_add, BitVec.toNat_setWidth]
  split at sign <;> omega

theorem branchTarget_next (pc off : Addr) : branchTarget .next pc off = pc + 1#20 + off := by
  rw [branchTarget, branchSum, BitVec.ofInt_add, BitVec.ofInt_add, BitVec.ofInt_toInt,
    BitVec.ofInt_natCast, BitVec.ofNat_toNat, BitVec.setWidth_eq]
  rfl

theorem branchTarget_current (pc off : Addr) : branchTarget .current pc off = pc + off := by
  rw [branchTarget, branchSum, BitVec.ofInt_add, BitVec.ofInt_toInt, BitVec.ofInt_natCast,
    BitVec.ofNat_toNat, BitVec.setWidth_eq]

/-- Settles O27: all are sums modulo 2^20 of the same three numbers. -/
theorem offsetsAddModulo : Obligations.OffsetsAddModulo := by
  intro base pc off
  refine ⟨accessAddress_eq_add base off, branchTarget_next pc off, branchTarget_current pc off, ?_, ?_⟩
  · rw [accessAddress_eq_add]; simp
  · rw [← effectiveAddress_toNat]; rfl

/-! ### How the memory instructions end -/

theorem exec_lw (hr : Reachable (s.reg rs) off s) (hs : HasSuccessor s) :
    exec (.lw rd rs off) s = s.loadTo rd (accessAddress (s.reg rs) off) :=
  (State.accessing_of hr).trans (State.inSequence_of hs)

theorem exec_sw (hr : Reachable (s.reg rs) off s) (hs : HasSuccessor s) :
    exec (.sw rd rs off) s = s.storeTo (accessAddress (s.reg rs) off) (s.reg rd) :=
  (State.accessing_of hr).trans (State.inSequence_of hs)

/-- `sw` to ram, where it ends in a next state. -/
theorem exec_sw_ram (hr : Reachable (s.reg rs) off s) (hs : HasSuccessor s)
    (ram : s.platform.memMap.kindAt (accessAddress (s.reg rs) off) = .ram) :
    exec (.sw rd rs off) s = .next
      ((s.setMem (s.mem.writeWord (accessAddress (s.reg rs) off) (s.reg rd))).noteStore
        (accessAddress (s.reg rs) off)).advance := by
  rw [exec_sw hr hs, State.storeTo, State.memWrite_ram ram]

theorem mem_noteStore {a b : Addr} : b ∈ (s.noteStore a).stored ↔ b = a ∨ b ∈ s.stored := by
  rw [State.noteStore_stored]
  split
  case isTrue h => exact ⟨.inr, fun hb => hb.elim (· ▸ h) id⟩
  case isFalse => exact List.mem_cons

/-- A byte of a word never stored to is a free value. -/
theorem byteOf_word_unwritten {m : Memory} {a : Addr}
    (h : ∀ k, k < 4 → m.read? (cellOf a k) = none) {k : Nat} (hk : k < 4) :
    byteOf (m.word a) k = Config.unwrittenCell (cellOf a k) := by
  have cell (j : Nat) (hj : j < 4) : m.cell (cellOf a j) = Config.unwrittenCell (cellOf a j) := by
    rw [Memory.cell, h j hj]; rfl
  rw [Memory.word]
  interval_cases k <;> simp [cell]

/-- Settles O28: the load is a write of the word memory gives; a word stored whole is that one, and the
bytes of one never stored are free values. -/
theorem loadFromStorage : Obligations.LoadFromStorage := by
  intro rd rs off s hr hs storage
  have load : exec (.lw rd rs off) s = s.finish rd (s.mem.word (accessAddress (s.reg rs) off)) := by
    rw [exec_lw hr hs, State.loadTo, State.memRead_storage storage, State.finish,
      State.inSequence_of hs]
  exact ⟨_, completes_of_finish hs load, fun w hw => Memory.word_of_word? hw,
    fun unwritten k hk => byteOf_word_unwritten unwritten hk⟩

/-- Settles O29, from what `writeWord` stores and what it leaves. -/
theorem storeToRam : Obligations.StoreToRam := by
  intro rd rs off s hr hs ram
  refine ⟨_, exec_sw_ram hr hs ram, Memory.word?_writeWord_self _ _ _,
    fun c hc => Memory.read?_writeWord_outside _ _ hc, rfl, SameRegs.refl s,
    ⟨⟨rfl, rfl, rfl, rfl, rfl, rfl, rfl⟩, rfl, rfl, rfl, rfl, rfl, rfl⟩, ⟨rfl, rfl, rfl⟩, rfl, rfl,
    fun b => ?_⟩
  exact mem_noteStore

theorem exec_lw_device (hr : Reachable (s.reg rs) off s) (hs : HasSuccessor s)
    (device : s.platform.memMap.kindAt (accessAddress (s.reg rs) off) = .device) :
    exec (.lw rd rs off) s = .next
      ((s.logDevice (.read (accessAddress (s.reg rs) off) s.draw)).drawn.retire rd s.draw) := by
  rw [exec_lw hr hs, State.loadTo, State.memRead_device device]

theorem exec_sw_device (hr : Reachable (s.reg rs) off s) (hs : HasSuccessor s)
    (device : s.platform.memMap.kindAt (accessAddress (s.reg rs) off) = .device) :
    exec (.sw rd rs off) s = .next
      (s.logDevice (.write (accessAddress (s.reg rs) off) (s.reg rd))).advance := by
  rw [exec_sw hr hs, State.storeTo, State.memWrite_device device]

/-- Settles O30: the next states are those of `exec_lw_device` and `exec_sw_device`. -/
theorem deviceAccesses : Obligations.DeviceAccesses := by
  intro rd rs off s hr hs device
  exact ⟨⟨_, exec_lw_device hr hs device, s.writes_setReg rd s.draw, rfl, SameMemory.refl s,
      ⟨⟨rfl, rfl, rfl, rfl, rfl, rfl, rfl⟩, rfl, rfl, rfl, rfl, rfl, rfl⟩, ⟨rfl, rfl, rfl⟩, rfl, rfl, rfl⟩,
    ⟨_, exec_sw_device hr hs device, SameRegs.refl s, rfl, SameMemory.refl s,
      ⟨⟨rfl, rfl, rfl, rfl, rfl, rfl, rfl⟩, rfl, rfl, rfl, rfl, rfl, rfl⟩, ⟨rfl, rfl, rfl⟩, rfl, rfl, rfl⟩⟩

theorem not_reachable {base : Word} (hp : s.platform.eaHighBits = .refuse)
    (hea : 1048576 ≤ (effectiveAddress base off).toNat) : ¬ Reachable base off s := by
  rw [Reachable, hp]
  simpa using hea

/-- Settles O31: the map or the address check stops the access before it changes anything. -/
theorem accessesWithoutBehaviourStop : Obligations.AccessesWithoutBehaviourStop := by
  intro rd rs off s
  refine ⟨fun hr hs => ⟨fun absent => ⟨?_, ?_⟩, fun rom => ?_⟩, fun hp hea => ?_⟩
  · rw [exec_lw hr hs, State.loadTo, State.memRead_absent absent]
  · rw [exec_sw hr hs, State.storeTo, State.memWrite_absent absent]
  · rw [exec_sw hr hs, State.storeTo, State.memWrite_rom rom]
  · exact ⟨State.accessing_refused (not_reachable hp hea), State.accessing_refused (not_reachable hp hea)⟩

/-! ### Writes of words, one after the other (20_memory.md R62, R63) -/

/-- A write of another word leaves the word at `a` and the platform alone. -/
theorem State.memWrite_keeps {a b : Addr} {v : Word} (hne : b ≠ a) (h : s.memWrite b v = .ok t) :
    t.mem.word? a = s.mem.word? a ∧ t.platform = s.platform := by
  rcases State.memWrite_cases h with ⟨-, rfl⟩ | ⟨-, rfl⟩
  · exact ⟨Memory.word?_writeWord_other _ _ hne.symm, rfl⟩
  · exact ⟨rfl, rfl⟩

theorem laterWrites_keeps {a : Addr} : ∀ {later : List (Addr × Word)} {s t : State},
    (∀ x ∈ later, x.1 ≠ a) → laterWrites later s = .ok t →
    t.mem.word? a = s.mem.word? a ∧ t.platform = s.platform
  | [], _, _, _, h => by cases h; exact ⟨rfl, rfl⟩
  | (b, v) :: later, s, t, hne, h => by
    rw [laterWrites] at h
    split at h
    next u hu =>
      obtain ⟨word, platform⟩ := State.memWrite_keeps (hne _ List.mem_cons_self) hu
      obtain ⟨word', platform'⟩ := laterWrites_keeps (fun x hx => hne x (List.mem_cons_of_mem _ hx)) h
      exact ⟨word'.trans word, platform'.trans platform⟩
    next => cases h

/-- Settles O32.  The word at `a` stays what was written through the later writes, by induction on
them; a read and a fetch then find it. -/
theorem wordWriteThenRead : Obligations.WordWriteThenRead := by
  intro s a v
  refine ⟨fun ram => ⟨_, State.memWrite_ram ram, rfl, fun b hb => ?_, fun later u hne hu => ?_⟩,
    fun rom => State.memWrite_rom rom, fun absent => State.memWrite_absent absent,
    fun device => State.memWrite_device device⟩
  · exact ⟨Memory.word_writeWord_other _ _ hb, Memory.word?_writeWord_other _ _ hb⟩
  · obtain ⟨kept, platform⟩ := laterWrites_keeps hne hu
    have word : u.mem.word? a = some v := kept.trans (Memory.word?_writeWord_self _ _ _)
    have ram' : u.platform.memMap.kindAt a = .ram := platform ▸ ram
    refine ⟨?_, fun coherent => ?_⟩
    · rw [State.memRead_storage (.inl ram'), Memory.word_of_word? word]
    · exact State.fetch_eq_ok.2 ⟨.inl ram', word, .inl (platform ▸ coherent)⟩

/-! ### A store into the next instruction's word (20_memory.md R75, D26) -/

/-- A step without interrupt that the mode allows, where the fetch stops. -/
theorem step_of_fetch_error {f : Fault} (hn : NoInterrupt s) (hm : MayStep s) (hf : s.fetch = .error f) :
    step s = .fault f := by
  have hm : (withLines s).refusesStep = false := State.refusesStep_eq_false.2 hm
  have hf : (withLines s).fetch = .error f := hf
  rw [step_eq, takesInterrupt_eq_false.2 hn]
  simp [State.fetchAndExec, hm, hf]

theorem State.fetch_modified (storage : s.platform.memMap.kindAt s.pc = .ram ∨
      s.platform.memMap.kindAt s.pc = .rom) (word : s.mem.word? s.pc ≠ none)
    (hp : s.platform.fetchCoherence = .refuseModified) (hm : s.pc ∈ s.stored) :
    s.fetch = .error (.modifiedFetch s.pc) := by
  obtain ⟨w, hw⟩ := Option.ne_none_iff_exists'.1 word
  have blocked : s.fetchable = false := by simp [State.fetchable, hp, hm]
  rcases storage with hk | hk <;> simp [State.fetch, hk, hw, blocked]

/-- The word of an instruction at `pc` is executed, under every policy of the decoder. -/
theorem step_of_encode (hn : NoInterrupt s) (hm : MayStep s) {i : Instr} (hw : WordAtPc (encode i) s) :
    step s = exec i (withLines s) := by
  have decoded : (withLines s).decode (encode i) = .ok i := (decodeOfEncode i).2.1 _ _
  rw [step_of_word hn hm hw, State.execWord, decoded]

/-- Settles O33: the store is the ram one, so the next `pc` holds the word stored and is on the list of
words stored to. -/
theorem storeSeenByNextFetch : Obligations.StoreSeenByNextFetch := by
  intro rd rs off s t i h ha ram hn hm
  obtain ⟨hr, inSequence⟩ := State.accessing_eq_next h
  obtain ⟨hs, -⟩ := State.inSequence_eq_next inSequence
  have stored := exec_sw_ram (rd := rd) hr hs (ha ▸ ram)
  cases h.symm.trans stored
  rw [ha] at hn hm ⊢
  have word := s.mem.word?_writeWord_self (s.pc + 1#20) (s.reg rd)
  refine ⟨fun coherent hi => ?_, fun hp => ?_⟩
  · exact step_of_encode hn hm ⟨.inl ram, hi ▸ word, .inl coherent⟩
  · exact step_of_fetch_error hn hm (State.fetch_modified (.inl ram)
      (Option.ne_none_iff_exists'.2 ⟨_, word⟩) hp (mem_noteStore.2 (.inl rfl)))

end Sys2Proof.Machine
end

section
/-! PROOFS. The special instructions (spec/45_special.md), and how a step begins: the interrupt check, the
fetch, the reserved-word rule and the mode check (spec/00_scope.md R12, spec/60_exceptions.md). -/

namespace Sys2Proof.Machine

variable {s t : State} {rd rs n : Reg} {k : Special}

/-! ### `movgs` and `movsg` (45_special.md R246, R247) -/

theorem State.moveToSpecial_of {v : Word} (named : s.platform.spr.named? n = some k)
    (writable : s.platform.spr.writable k = true) :
    s.moveToSpecial n v = s.inSequence (.next (s.setSpecial k v).advance) := by
  simp only [State.moveToSpecial, named, writable, if_true]

theorem State.moveFromSpecial_of (named : s.platform.spr.named? n = some k) :
    s.moveFromSpecial rd n = s.inSequence (.next ((s.afterRead k).retire rd (s.special k))) := by
  simp only [State.moveFromSpecial, named]

theorem exec_movgs_profile (hm : MayUseSpecials s) (hs : HasSuccessor s)
    (profile : s.platform.spr = SprLayout.profile) (named : SprLayout.profile.named? n = some k)
    (writable : SprLayout.profile.writable k = true) :
    exec (.movgs n rs) s = .next (s.setSpecial k (s.reg rs)).advance := by
  rw [← profile] at named writable
  exact (State.privileged_allowed hm).trans
    ((State.moveToSpecial_of named writable).trans (State.inSequence_of hs))

theorem exec_movsg_profile (hm : MayUseSpecials s) (profile : s.platform.spr = SprLayout.profile)
    (named : SprLayout.profile.named? n = some k) :
    exec (.movsg rd n) s = s.inSequence (.next ((s.afterRead k).retire rd (s.special k))) := by
  rw [← profile] at named
  exact (State.privileged_allowed hm).trans (State.moveFromSpecial_of named)

/-- Settles O34: the seven numbers name writable registers, and `setSpecial` of each is the update the
statement writes out; that of `$cctrl` by `setCctrl_profile`. -/
theorem moveToSpecialResults : Obligations.MoveToSpecialResults := by
  intro rs s hm hs profile
  have written {n : Reg} (k : Special) (named : SprLayout.profile.named? n = some k)
      (writable : SprLayout.profile.writable k = true) :=
    exec_movgs_profile (rs := rs) hm hs profile named writable
  refine ⟨written .evec rfl rfl, written .ear rfl rfl, written .esp rfl rfl, written .ers rfl rfl,
    written .ptable rfl rfl, written .rbase rfl rfl, (written .cctrl rfl rfl).trans ?_⟩
  rw [State.setSpecial, State.setCctrl_profile profile]
  rfl

/-- A read that uses a free value writes the register's word and changes nothing else. -/
theorem exec_movsg_drawn (hm : MayUseSpecials s) (hs : HasSuccessor s)
    (profile : s.platform.spr = SprLayout.profile) (named : SprLayout.profile.named? n = some k)
    (draws : s.afterRead k = s.drawn) :
    ∃ t, exec (.movsg rd n) s = .next t ∧ Writes rd (s.special k) s t ∧
      t.pc = s.pc + 1#20 ∧ SameMemory s t ∧ SameSpecials s t ∧ SameOutside s t ∧
      t.draws = s.draws + 1 ∧ t.deviceLog = s.deviceLog ∧ t.stored = s.stored := by
  have h := exec_movsg_profile (rd := rd) hm profile named
  rw [State.inSequence_of hs, draws] at h
  exact ⟨_, h, s.writes_setReg rd _, rfl, SameMemory.refl s,
    ⟨⟨rfl, rfl, rfl, rfl, rfl, rfl, rfl⟩, rfl, rfl, rfl, rfl, rfl, rfl⟩, ⟨rfl, rfl, rfl⟩, rfl, rfl, rfl⟩

/-- The fields of `$cctrl` under the default profile, each at its place (10_state.md R42). -/
theorem cctrlWord_fields (profile : s.platform.spr = SprLayout.profile) (d : Word) :
    (s.cctrlWord d).extractLsb' 4 8 = s.imask ∧ (s.cctrlWord d).getLsbD 3 = s.ku ∧
      (s.cctrlWord d).getLsbD 2 = s.oku ∧ (s.cctrlWord d).getLsbD 1 = s.ie ∧
      (s.cctrlWord d).getLsbD 0 = s.oie ∧
      (s.cctrlWord d).extractLsb' 12 20 = d.extractLsb' 12 20 := by
  rw [State.cctrlWord_profile profile]
  refine ⟨BitVec.eq_of_getLsbD_eq fun j hj => ?_, ?_, ?_, ?_, ?_,
    BitVec.eq_of_getLsbD_eq fun j hj => ?_⟩
  · simp only [BitVec.getLsbD_extractLsb', BitVec.getLsbD_append]
    interval_cases j <;> simp
  · simp only [BitVec.getLsbD_append]; simp
  · simp only [BitVec.getLsbD_append]; simp
  · simp only [BitVec.getLsbD_append]; simp
  · simp only [BitVec.getLsbD_append]; simp
  · simp only [BitVec.getLsbD_extractLsb', BitVec.getLsbD_append]
    interval_cases j <;> simp

/-- Settles O35: a named register is read whole; the counters and `$cctrl` are read with a free value. -/
theorem moveFromSpecialResults : Obligations.MoveFromSpecialResults := by
  intro rd s hm hs profile
  have read {n : Reg} (k : Special) (named : SprLayout.profile.named? n = some k)
      (unchanged : s.afterRead k = s) : Completes (.movsg rd n) s rd (s.special k) :=
    completes_of_finish hs (by rw [exec_movsg_profile hm profile named, unchanged, State.finish])
  refine ⟨⟨read .estat rfl rfl, read .evec rfl rfl, read .ear rfl rfl, read .esp rfl rfl,
    read .ers rfl rfl, read .ptable rfl rfl, read .rbase rfl rfl⟩, ?_⟩
  rintro n (rfl | rfl | rfl)
  · obtain ⟨t, h, writes, pc, mem, specials, outside, draws, log, stored⟩ :=
      exec_movsg_drawn (rd := rd) (n := 4#4) (k := .cctrl) hm hs profile rfl rfl
    exact ⟨t, _, h, writes, pc, mem, specials, outside, draws, log, stored,
      fun _ => cctrlWord_fields profile _, fun hne => absurd rfl hne⟩
  · obtain ⟨t, h, writes, pc, mem, specials, outside, draws, log, stored⟩ :=
      exec_movsg_drawn (rd := rd) (n := 6#4) (k := .icount) hm hs profile rfl rfl
    exact ⟨t, _, h, writes, pc, mem, specials, outside, draws, log, stored,
      fun hn => absurd hn (by decide), fun _ => rfl⟩
  · obtain ⟨t, h, writes, pc, mem, specials, outside, draws, log, stored⟩ :=
      exec_movsg_drawn (rd := rd) (n := 7#4) (k := .ccount) hm hs profile rfl rfl
    exact ⟨t, _, h, writes, pc, mem, specials, outside, draws, log, stored,
      fun hn => absurd hn (by decide), fun _ => rfl⟩

theorem named_profile_none : ∀ n : Reg, n.toNat < 4 ∨ 14 ≤ n.toNat →
    SprLayout.profile.named? n = none := by decide

/-- Under the default profile the numbers 5 to 7 name registers `movgs` does not write. -/
theorem named_profile_readOnly : ∀ n : Reg, n = 5#4 ∨ n = 6#4 ∨ n = 7#4 →
    ∃ k, SprLayout.profile.named? n = some k ∧ SprLayout.profile.writable k = false := by
  rintro n (rfl | rfl | rfl)
  · exact ⟨.estat, rfl, rfl⟩
  · exact ⟨.icount, rfl, rfl⟩
  · exact ⟨.ccount, rfl, rfl⟩

/-- Settles O36, by which registers the profile names and which of them it lets `movgs` write. -/
theorem specialMoveRefusals : Obligations.SpecialMoveRefusals := by
  intro n r s hm profile
  refine ⟨fun hn => ?_, fun hn => ?_⟩
  · have unnamed := named_profile_none n hn
    refine ⟨(State.privileged_allowed hm).trans ?_, (State.privileged_allowed hm).trans ?_⟩
    · simp only [State.moveToSpecial, profile, unnamed]
    · simp only [State.moveFromSpecial, profile, unnamed]
  · obtain ⟨k, named, readOnly⟩ := named_profile_readOnly n hn
    refine (State.privileged_allowed hm).trans ?_
    simp only [State.moveToSpecial, profile, named, readOnly, Bool.false_eq_true, if_false]

/-! ### Exceptions by instructions, and the return from them -/

/-- Settles O37: in user mode under `gpf` each of the three is the general protection trap. -/
theorem userModeProtection : Obligations.UserModeProtection := by
  intro a b s hd user gpf
  have mode : s.ku ≠ s.platform.kuKernel := by simp [user, hd.kernel]
  have raises (i : Instr) (h : exec i s = s.trap .generalProtection) : Raises i s 0x1000#32 :=
    raises_of_trap hd h
  exact ⟨raises _ (State.privileged_denied mode gpf), raises _ (State.privileged_denied mode gpf),
    raises _ (State.privileged_denied mode gpf)⟩

/-- A trap under `EAR_VALUE = faulting` and a fixed handler (the alternatives of D20 to D22). -/
theorem State.trap_faulting_fixed {a : Addr} (c : Cause) (entry : s.platform.excEntry = EntryStep.sequence)
    (ear : s.platform.earValue = .faulting) (handler : s.platform.excHandler = .fixed a) :
    s.trap c = .next { s with
      oie := s.ie, oku := s.ku, ie := false, ku := s.platform.kuKernel, ear := s.pc.setWidth 32,
      estat := causeWord s.platform.causes c, pc := a } := by
  have target : HasTarget s := .inr (.inl (by simp [handler]))
  have address : s.handler = a := by rw [State.handler, handler]
  simp only [State.trap, ear, State.entering_of target, State.raise, State.returnAddress,
    State.enter_eq entry, address]
  rfl

/-- Settles O38: both instructions are the trap with their cause. -/
theorem breakAndSyscallEnter : Obligations.BreakAndSyscallEnter := by
  refine ⟨fun s hd => ?_, fun s a entry ear handler =>
    ⟨State.trap_faulting_fixed .breakpoint entry ear handler,
      State.trap_faulting_fixed .systemCall entry ear handler⟩⟩
  obtain ⟨brkEnters, brkRefused⟩ := raises_of_trap (i := .brk) (c := .breakpoint) hd rfl
  obtain ⟨callEnters, callRefused⟩ := raises_of_trap (i := .syscall) (c := .systemCall) hd rfl
  exact ⟨fun ht => ⟨brkEnters ht, callEnters ht⟩, fun ht => ⟨brkRefused ht, callRefused ht⟩⟩

theorem exec_rfe (hm : MayUseSpecials s) : exec .rfe s = .next s.returnFrom :=
  State.privileged_allowed hm

/-- Settles O39: the allowed `rfe` is `returnFrom`. -/
theorem returnFromExceptionResult : Obligations.ReturnFromExceptionResult := by
  intro s hm
  rw [exec_rfe hm, State.returnFrom, addrOfWord_eq_setWidth]

/-- Settles O40: entry leaves kernel mode on, so the `rfe` is allowed, and copies back what entry
saved. -/
theorem entryThenReturn : Obligations.EntryThenReturn := by
  intro i s t cause kernel _ entered
  have allowed : MayUseSpecials t := .inl (by rw [entered.ku, entered.outside.platform, kernel])
  refine ⟨_, exec_rfe allowed, entered.oie, entered.oku, ?_, entered.oie, entered.oku, rfl, entered.estat,
    entered.regs, entered.memory⟩
  show addrOfWord t.ear = _
  rw [entered.ear, ← wordOfAddr_eq, addrOfWord_wordOfAddr]

/-! ### The step (00_scope.md R12) -/

/-- Settles O41: the lines are sampled, and the decoded word is executed. -/
theorem stepRunsDecodedInstruction : Obligations.StepRunsDecodedInstruction := by
  rintro s w i hn hw hm (decoded | ⟨-, rfl⟩)
  · have decoded : (withLines s).decode w = .ok i := decoded
    rw [step_of_word hn hm hw, State.execWord, decoded]
  · exact step_of_encode hn hm hw

theorem step_of_interrupt (h : ¬ NoInterrupt s) :
    step s = (withLines s).entering (withLines s).interrupt := by
  rw [step_eq, takesInterrupt_eq_true.2 h, if_pos rfl, State.takeInterrupt]

/-- The cause word of an interrupt holds line `n` at bit `4 + n`, and nothing else. -/
theorem interruptWord_getLsbD (p : BitVec 8) (n : Nat) :
    (interruptWord CauseEncoding.words p).getLsbD n = (decide (4 ≤ n ∧ n < 12) && p.getLsbD (n - 4)) := by
  simp only [interruptWord, CauseEncoding.words, byteAt, BitVec.getLsbD_shiftLeft, BitVec.getLsbD_setWidth]
  by_cases low : n < 4
  · simp [low, show ¬ 4 ≤ n by omega]
  by_cases high : n < 12
  · simp [low, high, show 4 ≤ n by omega, show n < 32 by omega, show n - 4 < 32 by omega]
  · simp [high, BitVec.getLsbD_of_ge p (n - 4) (by omega)]

/-- Settles O42: the step is the entry of `interrupt` before any fetch. -/
theorem interruptEntry : Obligations.InterruptEntry := by
  intro s hd enabled lines
  have taken : ¬ NoInterrupt s := by simp [NoInterrupt, enabled, lines]
  refine ⟨fun target => ⟨_, interruptWord s.platform.causes (linesAt s &&& s.imask), ?_,
    State.entered_enter hd.withLines _ s.pc, fun n => ?_⟩, fun noTarget => ?_⟩
  · exact (step_of_interrupt taken).trans (State.entering_of target _)
  · rw [hd.causes, interruptWord_getLsbD, BitVec.getLsbD_and]
  · exact (step_of_interrupt taken).trans (State.entering_refused noTarget _)

theorem DecidedTrap.withLines (h : DecidedTrap s) : DecidedTrap (withLines s) :=
  ⟨h.toDecidedEntry.withLines, h.earValue, h.successor⟩

/-- Settles O43: a word that does not decode is the reserved-word rule of the platform. -/
theorem reservedWordPolicies : Obligations.ReservedWordPolicies := by
  intro s w e hn hw hm undecoded
  have undecoded : (withLines s).decode w = .error e := undecoded
  have reserved : step s = (withLines s).reservedWord e := by
    rw [step_of_word hn hm hw, State.execWord, undecoded]
  refine ⟨fun refuse => ?_, fun gpf hd => ?_⟩
  · have refuse : (withLines s).platform.reserved = .refuse := refuse
    rw [reserved, State.reservedWord, refuse]
  · have gpf : (withLines s).platform.reserved = .gpf := gpf
    have trapped := State.trap_of hd.withLines .generalProtection
    rw [reserved, State.reservedWord, gpf]
    exact ⟨fun target => ⟨_, trapped.trans (State.entering_of target _),
        State.entered_enter hd.withLines.toDecidedEntry _ _⟩,
      fun noTarget => trapped.trans (State.entering_refused noTarget _)⟩

theorem step_of_refused_mode (hn : NoInterrupt s) (hm : ¬ MayStep s) : step s = .refused .userModeStep := by
  have hm : (withLines s).refusesStep = true := by
    rw [← Bool.not_eq_false, State.refusesStep_eq_false]; exact hm
  rw [step_eq, takesInterrupt_eq_false.2 hn]
  simp [State.fetchAndExec, hm]

/-- A step with no next state is no jump to itself. -/
theorem atSelfJump_of_refused {r : Refusal} (h : step s = .refused r) : s.atSelfJump = false := by
  simp [State.atSelfJump, h]

/-- Settles O44: what the map, the word or the policy of fetches stops stops the fetch; the mode check
comes before it. -/
theorem stepsWithoutBehaviourStop : Obligations.StepsWithoutBehaviourStop := by
  intro s hn
  refine ⟨fun hm => ?_, fun user refuse => ?_⟩
  · have stops {f : Fault} := step_of_fetch_error (f := f) hn hm
    refine ⟨fun hk => stops ?_, fun hk => stops ?_, fun storage => ⟨fun word => stops ?_,
      fun word hp stored => stops (State.fetch_modified storage word hp stored)⟩⟩
    · simp [State.fetch, hk]
    · simp [State.fetch, hk]
    · rcases storage with hk | hk <;> simp [State.fetch, hk, word]
  · have refused := step_of_refused_mode hn (by simp [MayStep, user, refuse])
    exact ⟨refused, atSelfJump_of_refused refused⟩

end Sys2Proof.Machine
end

section
/-! PROOFS. The power-on state (spec/10_state.md R50), and which instructions answer a next state
(spec/00_scope.md R7, spec/10_state.md R37). -/

namespace Sys2Proof.Machine

variable {s t : State} {i : Instr} {rd n : Reg}

/-! ### Power-on (10_state.md R50) -/

theorem powerOn_read? (p : Platform) (u : PowerOn) (c : Nat) : (State.powerOn p u).mem.read? c = none :=
  rfl

theorem powerOn_reg (p : Platform) (u : PowerOn) (k : Fin 15) :
    (State.powerOn p u).reg (BitVec.ofNat 4 (k.val + 1)) = u.general.get k := by
  have hk := k.isLt
  have nonzero : BitVec.ofNat 4 (k.val + 1) ≠ 0#4 := by
    rw [ne_eq, ← BitVec.toNat_inj, BitVec.toNat_ofNat, BitVec.toNat_ofNat]
    omega
  have entry : (k.val + 1) % 16 = k.val + 1 := Nat.mod_eq_of_lt (by omega)
  simp [State.reg, State.powerOn, nonzero, Vector.get_eq_getElem, entry]

theorem inv_powerOn (p : Platform) (u : PowerOn) : Inv (State.powerOn p u) where
  canonical := Memory.wf_nil
  wholeWords _ _ _ := rfl
  onlyStorage _ _ _ h := by cases h
  zeroEntry := rfl

/-- Settles O51: nothing is in memory at power-on. -/
theorem powerOnInvariant : Obligations.PowerOnInvariant :=
  ⟨inv_powerOn, inv_powerOn _ _⟩

/-- Settles O52; all but the general registers and the empty memory are fields of `powerOn`. -/
theorem powerOnState : Obligations.PowerOnState :=
  ⟨fun p u => ⟨rfl, rfl, rfl, rfl, rfl, powerOn_read? p u, powerOn_reg p u, rfl, rfl, rfl, rfl, rfl, rfl,
    rfl, rfl, rfl, rfl, rfl, rfl⟩, ⟨_, _, rfl⟩, rfl, rfl, .inl rfl⟩

/-! ### The instructions that compute a register, and the others -/

/-- How an instruction that computes a general register can end. -/
inductive Computes (s : State) : Result → Prop
  | finish (rd : Reg) (v : Word) : Computes s (s.finish rd v)
  | arithTrap (rd : Reg) (c : Cause) : Computes s (s.arithTrap rd c)
  | refused (policy : s.platform.divMinNeg1 = .refuse) : Computes s (.refused .divideMinByMinusOne)

/-- The instructions that do more than compute a general register: they jump, access memory or special
registers, or enter and leave the handler. -/
inductive Controls : Instr → Prop
  | j (a : Addr) : Controls (.j a)
  | jal (a : Addr) : Controls (.jal a)
  | jr (rs : Reg) : Controls (.jr rs)
  | jalr (rs : Reg) : Controls (.jalr rs)
  | beqz (rs : Reg) (off : Addr) : Controls (.beqz rs off)
  | bnez (rs : Reg) (off : Addr) : Controls (.bnez rs off)
  | lw (rd rs : Reg) (off : Addr) : Controls (.lw rd rs off)
  | sw (rd rs : Reg) (off : Addr) : Controls (.sw rd rs off)
  | movgs (n rs : Reg) : Controls (.movgs n rs)
  | movsg (rd n : Reg) : Controls (.movsg rd n)
  | brk : Controls .brk
  | syscall : Controls .syscall
  | rfe : Controls .rfe

theorem computes_signedArith (s : State) (rd : Reg) (r : Int) : Computes s (s.signedArith rd r) := by
  unfold State.signedArith
  split
  · exact .arithTrap rd _
  · exact .finish rd _

theorem computes_unsignedArith (s : State) (rd : Reg) (r : Int) : Computes s (s.unsignedArith rd r) := by
  unfold State.unsignedArith
  split
  · exact .arithTrap rd _
  · exact .finish rd _

theorem computes_divide (s : State) (rd : Reg) (b v : Word) : Computes s (s.divide rd b v) := by
  unfold State.divide
  split
  · exact .arithTrap rd _
  · exact .finish rd _

theorem computes_signedDivide (s : State) (rd : Reg) (a b v : Word) :
    Computes s (s.signedDivide rd a b v) := by
  unfold State.signedDivide
  split
  next h =>
    rw [Bool.and_eq_true, beq_iff_eq] at h
    exact .refused h.1
  next => exact computes_divide s rd b v

theorem computes_or_controls (i : Instr) (s : State) : Computes s (exec i s) ∨ Controls i := by
  cases i
  case add | addi | sub | subi | mult | multi => exact .inl (computes_signedArith s _ _)
  case addu | addui | subu | subui | multu | multui => exact .inl (computes_unsignedArith s _ _)
  case div | divi | rem | remi => exact .inl (computes_signedDivide s _ _ _ _)
  case divu | divui | remu | remui => exact .inl (computes_divide s _ _ _)
  case sll | slli | srl | srli | sra | srai | and | andi | or | ori | xor | xori | lhi | la =>
    exact .inl (.finish _ _)
  case slt | slti | sltu | sltui | sgt | sgti | sgtu | sgtui | sle | slei | sleu | sleui | sge | sgei |
      sgeu | sgeui | seq | seqi | sequ | sequi | sne | snei | sneu | sneui =>
    exact .inl (.finish _ _)
  case j => exact .inr (.j _)
  case jal => exact .inr (.jal _)
  case jr => exact .inr (.jr _)
  case jalr => exact .inr (.jalr _)
  case beqz => exact .inr (.beqz _ _)
  case bnez => exact .inr (.bnez _ _)
  case lw => exact .inr (.lw _ _ _)
  case sw => exact .inr (.sw _ _ _)
  case movgs => exact .inr (.movgs _ _)
  case movsg => exact .inr (.movsg _ _)
  case brk => exact .inr .brk
  case syscall => exact .inr .syscall
  case rfe => exact .inr .rfe

/-! ### Answering a next state, or the refusal of R274 -/

/-- A next state; or, only where entry has no target, the refusal of R274. -/
def Answers (s : State) (r : Result) : Prop :=
  (HasTarget s → ∃ t, r = .next t) ∧ (¬ HasTarget s → (∃ t, r = .next t) ∨ r = .refused .handlerUnset)

theorem answers_next (s t : State) : Answers s (.next t) := ⟨fun _ => ⟨t, rfl⟩, fun _ => .inl ⟨t, rfl⟩⟩

theorem answers_entering (s t : State) : Answers s (s.entering t) :=
  ⟨fun target => ⟨t, State.entering_of target t⟩,
    fun noTarget => .inr (State.entering_refused noTarget t)⟩

theorem answers_inSequence (hs : HasSuccessor s) {r : Result} (h : Answers s r) :
    Answers s (s.inSequence r) := by
  rwa [State.inSequence_of hs]

theorem answers_trap (hs : HasSuccessor s) (c : Cause) : Answers s (s.trap c) := by
  unfold State.trap
  split
  · exact answers_inSequence hs (answers_entering _ _)
  · exact answers_entering _ _

theorem hasSuccessor_spoil (rd : Reg) : HasSuccessor (s.spoil rd) ↔ HasSuccessor s := by
  simp [HasSuccessor]

theorem answers_arithTrap (hs : HasSuccessor s) (rd : Reg) (c : Cause) : Answers s (s.arithTrap rd c) := by
  have h := answers_trap ((hasSuccessor_spoil rd).2 hs) c
  rwa [Answers, hasTarget_spoil] at h

theorem Computes.answers {r : Result} (h : Computes s r) (hs : HasSuccessor s)
    (wraps : s.platform.divMinNeg1 = .wrap) : Answers s r := by
  cases h with
  | finish => exact answers_inSequence hs (answers_next _ _)
  | arithTrap => exact answers_arithTrap hs _ _
  | refused policy => simp [wraps] at policy

theorem answers_privileged (hs : HasSuccessor s) {r : Result} (h : Answers s r) :
    Answers s (s.privileged r) := by
  unfold State.privileged
  split
  · exact answers_trap hs _
  · exact h

theorem answers_branch (wraps : s.platform.pcWrap = .wrap) (taken : Bool) (off : Addr) :
    Answers s (s.branch taken off) := by
  unfold State.branch
  split
  · rw [State.branchTo_of (.inl wraps)]; exact answers_next _ _
  · exact answers_inSequence (.inl wraps) (answers_next _ _)

theorem answers_moveToSpecial (hs : HasSuccessor s) {v : Word}
    (h : s.platform.spr.writableAt n = true) : Answers s (s.moveToSpecial n v) := by
  obtain ⟨k, named, writable⟩ := (Option.any_eq_true _ _).1 h
  rw [State.moveToSpecial_of named writable]
  exact answers_inSequence hs (answers_next _ _)

theorem answers_moveFromSpecial (hs : HasSuccessor s) (h : s.platform.spr.readableAt n = true) :
    Answers s (s.moveFromSpecial rd n) := by
  obtain ⟨k, named⟩ := Option.isSome_iff_exists.1 h
  rw [State.moveFromSpecial_of named]
  exact answers_inSequence hs (answers_next _ _)

/-- On all ram, under the decided policies, every well-formed instruction answers. -/
theorem exec_answers (ram : ∀ a, s.platform.memMap.kindAt a = .ram) (pcWraps : s.platform.pcWrap = .wrap)
    (ignored : s.platform.eaHighBits = .ignore) (divWraps : s.platform.divMinNeg1 = .wrap)
    (wf : i.wellFormedIn s.platform.spr = true) : Answers s (exec i s) := by
  have hs : HasSuccessor s := .inl pcWraps
  rcases computes_or_controls i s with computes | controls
  · exact computes.answers hs divWraps
  cases controls with
  | j | jr => exact answers_next _ _
  | jal | jalr => exact answers_inSequence hs (answers_next _ _)
  | beqz | bnez => exact answers_branch pcWraps _ _
  | lw =>
    rw [exec_lw (.inl ignored) hs, State.loadTo, State.memRead_storage (.inl (ram _))]
    exact answers_next _ _
  | sw => rw [exec_sw_ram (.inl ignored) hs (ram _)]; exact answers_next _ _
  | movgs => exact answers_privileged hs (answers_moveToSpecial hs wf)
  | movsg => exact answers_privileged hs (answers_moveFromSpecial hs wf)
  | brk | syscall => exact answers_trap hs _
  | rfe => exact answers_privileged hs (answers_next _ _)

/-! ### What needs the address of the next instruction (10_state.md R37) -/

theorem hasSuccessor_of_trap {c : Cause} (ear : s.platform.earValue = .next) (h : s.trap c = .next t) :
    HasSuccessor s := by
  simp only [State.trap, ear] at h
  exact (State.inSequence_eq_next h).1

theorem hasSuccessor_of_arithTrap {c : Cause} (ear : s.platform.earValue = .next)
    (h : s.arithTrap rd c = .next t) : HasSuccessor s :=
  (hasSuccessor_spoil rd).1 (hasSuccessor_of_trap (by simp [ear]) h)

theorem Computes.hasSuccessor (h : Computes s (.next t)) (ear : s.platform.earValue = .next) :
    HasSuccessor s := by
  generalize hr : Host.Outcome.next t = r at h
  cases h with
  | finish => exact (State.inSequence_eq_next hr.symm).1
  | arithTrap => exact hasSuccessor_of_arithTrap ear hr.symm
  | refused => cases hr

theorem hasSuccessor_of_moveToSpecial {v : Word} (h : s.moveToSpecial n v = .next t) : HasSuccessor s := by
  unfold State.moveToSpecial at h
  split at h
  next => cases h
  next =>
    split at h
    next => exact (State.inSequence_eq_next h).1
    next => cases h

theorem hasSuccessor_of_moveFromSpecial (h : s.moveFromSpecial rd n = .next t) : HasSuccessor s := by
  unfold State.moveFromSpecial at h
  split at h
  next => cases h
  next => exact (State.inSequence_eq_next h).1

/-- The instructions that go on without the address of the next one. -/
def GoesElsewhere (i : Instr) : Prop :=
  (∃ a, i = .j a) ∨ (∃ rs, i = .jr rs) ∨ (∃ rs off, i = .beqz rs off ∨ i = .bnez rs off) ∨ i = .rfe

theorem goesElsewhere_or_hasSuccessor (ear : s.platform.earValue = .next) (h : exec i s = .next t) :
    GoesElsewhere i ∨ HasSuccessor s := by
  rcases computes_or_controls i s with computes | controls
  · exact .inr ((h ▸ computes).hasSuccessor ear)
  cases controls with
  | j a => exact .inl (.inl ⟨a, rfl⟩)
  | jr rs => exact .inl (.inr (.inl ⟨rs, rfl⟩))
  | beqz rs off => exact .inl (.inr (.inr (.inl ⟨rs, off, .inl rfl⟩)))
  | bnez rs off => exact .inl (.inr (.inr (.inl ⟨rs, off, .inr rfl⟩)))
  | rfe => exact .inl (.inr (.inr (.inr rfl)))
  | jal | jalr => exact .inr (State.inSequence_eq_next h).1
  | lw | sw => exact .inr (State.inSequence_eq_next (State.accessing_eq_next h).2).1
  | brk | syscall => exact .inr (hasSuccessor_of_trap ear h)
  | movgs =>
    rcases privileged_eq_next h with ⟨-, h⟩ | ⟨-, h⟩
    · exact .inr (hasSuccessor_of_trap ear h)
    · exact .inr (hasSuccessor_of_moveToSpecial h)
  | movsg =>
    rcases privileged_eq_next h with ⟨-, h⟩ | ⟨-, h⟩
    · exact .inr (hasSuccessor_of_trap ear h)
    · exact .inr (hasSuccessor_of_moveFromSpecial h)

/-- Settles O53: by how each instruction ends, and by what it needs to end in a next state. -/
theorem wellFormedNeverStops : Obligations.WellFormedNeverStops := by
  refine ⟨fun i s ram pcWraps ignored divWraps wf => exec_answers ram pcWraps ignored divWraps wf,
    fun i s hp ear hpc => ?_⟩
  by_cases elsewhere : GoesElsewhere i
  · rcases elsewhere with h | h | h | h
    · exact .inl h
    · exact .inr (.inl h)
    · exact .inr (.inr (.inl h))
    · exact .inr (.inr (.inr (.inl h)))
  · refine .inr (.inr (.inr (.inr fun t h => ?_)))
    exact (goesElsewhere_or_hasSuccessor ear h).elim elsewhere (not_hasSuccessor hp hpc)

end Sys2Proof.Machine
end
